-- ==== Sys2Proof/Word.lean ====
section
/-! DEFINITION. The word widths of the block and of its ports. Durations are natural
numbers of nanoseconds (DESIGN CHOICE, unsafe, log entry 7): 10_state.md R16 says that the unit of the timer is not
architectural. -/

namespace Sys2Proof

/-- A RawFrame: a 32-bit unsigned value, bit `i` being `Di` (30_encoding.md R50). -/
abbrev Frame := BitVec 32

/-- A command word `{F, OP, FRAME_IN}` (30_encoding.md R54). -/
abbrev CmdWord := BitVec 36

/-- A response word `{STATUS, VALUE}` (30_encoding.md R57). -/
abbrev RspWord := BitVec 34

end Sys2Proof
end

