-- ==== Sys2Proof/Config.lean ====
section
/-! DEFINITION. What is fixed for one instance (00_scope.md R4, R5) and the free values of the environment. -/

namespace Sys2Proof

/-- `CFG.MODE`: how step 5 of a transaction is carried out (00_scope.md R4; 10_state.md R21: 0 = BITBANG, 1 = PERIPH). -/
inductive Mode where
  | bitbang
  | periph
  deriving DecidableEq, Repr

/-- A pin identifier is opaque: no rule computes with it (00_scope.md R4). It is a plain tag here, which nothing but an
equality test reads. -/
structure PinId where
  tag : Nat
  deriving DecidableEq, Repr

/-- The configuration record: the eleven parameters of 00_scope.md R4 and R5 (listed at the end of
92_eei_decisions.md). Durations are in nanoseconds and frequencies in hertz (DESIGN CHOICE, unsafe, log entry 7). -/
structure Cfg where
  mode : Mode
  csPin : PinId
  soPin : PinId
  sckPin : PinId
  tHold : Nat
  tSettle : Nat
  tPowerup : Nat
  tHalf : Nat
  fSckMax : Nat
  fClk : Nat
  errMarker : BitVec 32
  deriving DecidableEq, Repr

/-- The default of `T_HALF`, `1 / (2 * F_SCK_MAX)` (00_scope.md R5), rounded up to a whole nanosecond so that it is never
below that bound. -/
def Cfg.defaultHalf (fSckMax : Nat) : Nat := (1000000000 + 2 * fSckMax - 1) / (2 * fSckMax)

/-- The configuration that stands in `State.reset`. `T_HOLD`, `T_SETTLE`, `T_POWERUP`, `T_HALF` and `ERR_MARKER` are the
defaults of 00_scope.md R5. `CFG.MODE`, the pins, `F_SCK_MAX` and `F_CLK` are OPEN in the spec (92_eei_decisions.md D12,
D16): their values here are DESIGN CHOICE, unsafe (log entry 6), and no statement rests on them, because every statement
holds for every `Cfg` (in the constraints of R5 where a statement says so). -/
def Cfg.default : Cfg where
  mode := .bitbang
  csPin := { tag := 0 }
  soPin := { tag := 1 }
  sckPin := { tag := 2 }
  tHold := 1000
  tSettle := 100000000
  tPowerup := 200000000
  tHalf := Cfg.defaultHalf 1000000
  fSckMax := 1000000
  fClk := 1000000
  errMarker := 0x80000000#32

/-- The level of the data line at the `n`-th sample that the environment's own list of levels does not cover. A free value
under no law (20_memory.md R37; 93_implementation_defined.md U5, U19): it has no body, so nothing can be proved of it.
DESIGN CHOICE, safe (log entry 2). -/
opaque Config.freeLevel : Nat → Bool

/-- By how much the `n`-th wait that the environment's own list of delays does not cover lasts beyond its lower bound. A
free value under no law (00_scope.md R7, R8; 93_implementation_defined.md U15). DESIGN CHOICE, safe (log entry 3). -/
opaque Config.freeDelay : Nat → Nat

end Sys2Proof
end

