-- ==== Sys2Proof/Syntax.lean ====
section
/-! DEFINITION. The command set: one constructor per row of spec/opcode_table.json (30_encoding.md R56). -/

namespace Sys2Proof

/-- A command of the block. `FRAME_IN` is an operand of the four supplied-form decodes alone; `INIT`, `ACQ` and the fresh
forms ignore those 32 bits of the command word, so they carry no operand (30_encoding.md R55; log entry 16). -/
inductive Instr where
  /-- `INIT`: initialise the block and the lines (R70). -/
  | init
  /-- `ACQ`: run one transaction and return the frame (R71). -/
  | acq
  /-- `FAULT frame`: classify the thermocouple fault (R101). -/
  | fault (frame : Frame)
  /-- `IDOK frame`: the device-identity check (R102). -/
  | idok (frame : Frame)
  /-- `TCT frame`: the thermocouple temperature (R103). -/
  | tct (frame : Frame)
  /-- `CJT frame`: the cold-junction temperature (R104). -/
  | cjt (frame : Frame)
  /-- `FAULT.F`: acquire, then classify the fault (R121). -/
  | faultF
  /-- `IDOK.F`: acquire, then check identity (R122). -/
  | idokF
  /-- `TCT.F`: acquire, then decode the thermocouple temperature (R123). -/
  | tctF
  /-- `CJT.F`: acquire, then decode the cold-junction temperature (R124). -/
  | cjtF
  deriving DecidableEq, Repr

end Sys2Proof
end

