-- ==== Sys2Proof/WellFormed.lean ====
section
/-! DEFINITION. What is well formed: an instruction, a command word, a configuration. -/

namespace Sys2Proof

/-- The selector `cmd[35:32] = {F, OP}` of a command word (30_encoding.md R54, R56). -/
def CmdWord.selector (w : CmdWord) : BitVec 4 := w.extractLsb' 32 4

/-- The operand field `cmd[31:0] = FRAME_IN` (30_encoding.md R54). -/
def CmdWord.frameIn (w : CmdWord) : Frame := w.extractLsb' 0 32

/-- The ten selectors that 30_encoding.md R56 gives a command. -/
def legalSelectors : List (BitVec 4) := [0x0, 0x9, 0x2, 0x3, 0x4, 0x5, 0xA, 0xB, 0xC, 0xD]

/-- The six reserved selectors of 30_encoding.md R60. -/
def reservedSelectors : List (BitVec 4) := [0x1, 0x6, 0x7, 0x8, 0xE, 0xF]

/-- A command word is well formed when its selector is one of the ten of R56. -/
abbrev CmdWord.WellFormed (w : CmdWord) : Prop := w.selector ∈ legalSelectors

/-- Every term of `Instr` is well formed: the only operand is a 32-bit frame, every one of the 2^32 values is an ordinary
frame (30_encoding.md R54, R61), and its width is already in its type. What can be ill formed is a command WORD
(`CmdWord.WellFormed`) and a configuration (`Cfg.WellFormed`). -/
def Instr.wellFormed (i : Instr) : Bool :=
  match i with
  | .init => true
  | .acq => true
  | .fault _ => true
  | .idok _ => true
  | .tct _ => true
  | .cjt _ => true
  | .faultF => true
  | .idokF => true
  | .tctF => true
  | .cjtF => true

/-- `ERR_MARKER` lies outside −8192 … 8191 as a signed 32-bit number (00_scope.md R5, 30_encoding.md R58). -/
abbrev Cfg.MarkerOutside (c : Cfg) : Prop := c.errMarker.toInt < -8192 ∨ 8191 < c.errMarker.toInt

/-- The constraints that 00_scope.md R5 puts on the numeric parameters. The one on `T_HALF` is `T_HALF ≥ 1/(2·F_SCK_MAX)`,
written without division: nanoseconds times hertz against 10^9. -/
abbrev Cfg.WellFormed (c : Cfg) : Prop :=
  0 < c.tHold ∧ 0 < c.tSettle ∧ 0 < c.tPowerup ∧ 0 < c.fSckMax ∧ 0 < c.fClk ∧
    1000000000 ≤ 2 * c.fSckMax * c.tHalf ∧ c.MarkerOutside

end Sys2Proof
end

