-- ==== Sys2Proof/Decode.lean ====
section
/-! DEFINITION. From a 36-bit command word to an instruction, and back (30_encoding.md R54 to R56, R60, R64). -/

namespace Sys2Proof

/-- Why a command word is no command. -/
inductive DecodeError where
  /-- `cmd[35:32]` is one of the six reserved values (30_encoding.md R60). The machine then answers `ILLEGAL` (R134). -/
  | reserved (selector : BitVec 4)
  deriving DecidableEq, Repr

/-- The decoder, total on all 2^36 words: `cmd[35:32]` selects, `cmd[31:0]` never does (30_encoding.md R56). The operand
is taken as it stands by the four supplied forms and ignored by the others (R55). -/
def decode (w : CmdWord) : Except DecodeError Instr :=
  match w.selector.toNat with
  | 0 => .ok .init
  | 9 => .ok .acq
  | 2 => .ok (.fault w.frameIn)
  | 3 => .ok (.idok w.frameIn)
  | 4 => .ok (.tct w.frameIn)
  | 5 => .ok (.cjt w.frameIn)
  | 10 => .ok .faultF
  | 11 => .ok .idokF
  | 12 => .ok .tctF
  | 13 => .ok .cjtF
  | _ => .error (.reserved w.selector)

/-- The selector of a command (30_encoding.md R56, column `cmd[35:32]`). -/
def Instr.selector (i : Instr) : BitVec 4 :=
  match i with
  | .init => 0b0000#4
  | .acq => 0b1001#4
  | .fault _ => 0b0010#4
  | .idok _ => 0b0011#4
  | .tct _ => 0b0100#4
  | .cjt _ => 0b0101#4
  | .faultF => 0b1010#4
  | .idokF => 0b1011#4
  | .tctF => 0b1100#4
  | .cjtF => 0b1101#4

/-- The operand field of a command's canonical word: the frame of a supplied form, 0 for the commands that ignore it
(30_encoding.md R64). -/
def Instr.operand (i : Instr) : Frame :=
  match i with
  | .fault f => f
  | .idok f => f
  | .tct f => f
  | .cjt f => f
  | .init => 0#32
  | .acq => 0#32
  | .faultF => 0#32
  | .idokF => 0#32
  | .tctF => 0#32
  | .cjtF => 0#32

/-- The encoder: `{cmd[35:32], FRAME_IN}` (30_encoding.md R54, R64). -/
def encode (i : Instr) : CmdWord := i.selector ++ i.operand

/-- What the decoder reads from a row of spec/opcode_table.json whose 36 bits are `w`. The block has one 36-bit word format
and no shorter one (R54, R62), so how many bits the table lists makes no difference; a number of 2^36 or more needs wires
that the 36-bit command port does not have, and is no command (DEDUCED, safe, log entry 15). -/
def decodeTableWord (_nbits w : Nat) : Option Instr :=
  if w < 2 ^ 36 then
    match decode (BitVec.ofNat 36 w) with
    | .ok i => some i
    | .error _ => none
  else none

end Sys2Proof
end

