-- ==== Sys2Proof/Machine/State.lean ====
section
/-! DEFINITION. The state of one instance as plain data, the reasons a step can stop, and the state after reset. -/

namespace Sys2Proof.Machine

/-- The direction of a pin (00_scope.md R7). -/
inductive Dir where
  | input
  | output
  deriving DecidableEq, Repr

/-- The level an output pin drives (00_scope.md R7). -/
inductive Level where
  | L
  | H
  deriving DecidableEq, Repr

/-- The three device-side lines (20_memory.md R32). -/
inductive Line where
  | cs
  | sck
  | so
  deriving DecidableEq, Repr

/-- The two lines the block can drive: it never drives `so` (10_state.md R20). -/
inductive OutLine where
  | cs
  | sck
  deriving DecidableEq, Repr

/-- An output pin: its direction and its output latch (10_state.md R20, R24). -/
structure OutPin where
  dir : Dir
  latch : Level
  deriving DecidableEq, Repr

/-- The sequencer's position (10_state.md R14). `opened` is the spec's `OPEN`. -/
inductive Phase where
  | idle
  | pwrup
  | stop
  | settle
  | opened
  | shift
  | close
  deriving DecidableEq, Repr

/-- `STATUS` of a response (30_encoding.md R57). -/
inductive Status where
  | ok
  | errmark
  | notReady
  | illegal
  deriving DecidableEq, Repr

/-- What a command answers: `STATUS` and `VALUE` (30_encoding.md R57). -/
structure Response where
  status : Status
  value : BitVec 32
  deriving DecidableEq, Repr

/-- FaultCode (30_encoding.md R53). -/
inductive FaultCode where
  | ok
  | shortToSupply
  | shortToGround
  | openCircuit
  | unknown
  deriving DecidableEq, Repr

/-- The settings `c` of `SpiBegin(c)` (20_memory.md R44, 40_transaction_engine.md R81): the rate is at most `rateLimit`
hertz, the most significant bit comes first, the line is sampled on the falling edge, and the clock's idle level is
`clockIdle` (92_eei_decisions.md D17). The spec bounds the rate and does not give it, so the bound is what stands here
(DEDUCED, safe, log entry 8). -/
structure SpiCfg where
  rateLimit : Nat
  msbFirst : Bool
  sampleOnFalling : Bool
  clockIdle : Level
  deriving DecidableEq, Repr

/-- The events of a trace (00_scope.md R7, R8; 40_transaction_engine.md R84). -/
inductive Event where
  /-- `Dir(p, d)`. -/
  | dir (p : Line) (d : Dir)
  /-- `Pin(p, l)`. -/
  | pin (p : OutLine) (l : Level)
  /-- `Sample(k, b)`. -/
  | sample (k : Nat) (b : Bool)
  /-- `Wait(d)`. -/
  | wait (d : Nat)
  /-- `SpiInit`. -/
  | spiInit
  /-- `SpiBegin(c)`. -/
  | spiBegin (c : SpiCfg)
  /-- `SpiTransfer(n)` returning `w`. -/
  | spiTransfer (n : Nat) (w : Frame)
  /-- `SpiEnd`. -/
  | spiEnd
  /-- `Resp(STATUS, VALUE)`. -/
  | resp (st : Status) (v : BitVec 32)
  deriving DecidableEq, Repr

/-- What the host may do between two clock edges (70_reset_and_hazards.md R166; 20_memory.md R31). -/
inductive HostMove where
  /-- Present a command word on `cmd` with `cmd_valid = 1` until it is accepted (20_memory.md R33). -/
  | command (w : CmdWord)
  /-- Read `rsp` (20_memory.md R34). -/
  | readResponse
  /-- Assert `rst_n` (70_reset_and_hazards.md R150, R151). -/
  | reset
  deriving DecidableEq, Repr

/-- The outside world, as plain data: the inputs that 10_state.md R10 calls parameters of the step relation, and what the
host has read. These are the MODEL's own fields, not registers of the block (log entries 2, 3, 4, 10); a statement over
all states is a statement over all environments. -/
structure Env where
  /-- The host's moves still to come, next first. -/
  host : List HostMove
  /-- The levels of `so` at the next samples, next first; after them `Config.freeLevel` answers. -/
  levels : List Bool
  /-- How long the next waits last beyond their bounds, next first; after them `Config.freeDelay` answers. -/
  delays : List Nat
  /-- How many levels have been drawn from `Config.freeLevel`. -/
  freeLevels : Nat
  /-- How many durations have been drawn from `Config.freeDelay`. -/
  freeDelays : Nat
  /-- The response words the host has read, oldest first. -/
  reads : List RspWord
  deriving DecidableEq, Repr

/-- The state of one instance: every register, flag and pin of 10_state.md R12 to R21, the trace of 00_scope.md R8, and
the environment. -/
structure State where
  /-- `CMDREG` (R12). -/
  cmdreg : CmdWord
  /-- `SHREG` (R13). -/
  shreg : Frame
  /-- `PHASE` (R14). -/
  phase : Phase
  /-- `BITCNT` (R15). -/
  bitcnt : BitVec 6
  /-- `TIMER`: the time elapsed in the current wait (R16; log entry 20). -/
  timer : Nat
  /-- `RSP` (R17). -/
  rsp : RspWord
  /-- `RSP_VALID` (R17). -/
  rspValid : Bool
  /-- `READY` (R19). -/
  ready : Bool
  /-- `BUSY` (R19). -/
  busy : Bool
  /-- The control line `cs` (R20). -/
  cs : OutPin
  /-- The clock line `sck` (R20). -/
  sck : OutPin
  /-- The direction of the data line `so` (R20). -/
  soDir : Dir
  /-- The configuration register `CFG` with the numeric parameters (R21; 00_scope.md R4, R5). -/
  cfg : Cfg
  /-- The trace (00_scope.md R8). -/
  trace : List Event
  /-- The environment. -/
  env : Env
  deriving DecidableEq, Repr

/-- Why the model stops with a fault. The block itself raises nothing (60_exceptions.md R130). -/
inductive Fault where
  /-- Raised by the host's move `readResponse` while `RSP_VALID = 0`: "a model must treat such a read as a fault, not as
  zero" (10_state.md R17). Safe: the model stops where the spec gives the read no value (log entry 10). -/
  | responseNotValid
  deriving DecidableEq, Repr

/-- Why the model gives an instruction no meaning. -/
inductive Refusal where
  /-- Raised by an arm of `exec` that has no meaning yet, naming the mnemonic. Safe: nothing is proved of it. No arm of
  this model raises it. -/
  | notModelled (mnemonic : String)
  deriving DecidableEq, Repr

/-- The environment that says nothing: no host move, every level and every delay free (log entries 2, 3, 14). -/
def Env.silent : Env where
  host := []
  levels := []
  delays := []
  freeLevels := 0
  freeDelays := 0
  reads := []

/-- The state after reset of an instance strapped to `c` (10_state.md R24, 70_reset_and_hazards.md R150). `CMDREG`,
`SHREG`, `BITCNT`, `TIMER` and `RSP` are unspecified there; 0 is DESIGN CHOICE, unsafe (log entry 5). Reset does not touch
the environment. -/
def State.resetWith (c : Cfg) (e : Env) : State where
  cmdreg := 0#36
  shreg := 0#32
  phase := .idle
  bitcnt := 0#6
  timer := 0
  rsp := 0#34
  rspValid := false
  ready := false
  busy := false
  cs := { dir := .input, latch := .H }
  sck := { dir := .input, latch := .L }
  soDir := .input
  cfg := c
  trace := []
  env := e

/-- The machine right after reset, strapped to the default configuration (DESIGN CHOICE where the spec leaves it OPEN,
unsafe, log entry 6). -/
def State.reset : State := State.resetWith Cfg.default Env.silent

end Sys2Proof.Machine
end

