-- ==== Sys2Proof/Machine/Operands.lean ====
section
/-! DEFINITION. The operand forms: the fields of a RawFrame and their values (30_encoding.md R50 to R52), how a frame is
assembled from serial bits (R63), and the fields of the response word (R57). -/

namespace Sys2Proof.Machine

/-- `D31..D18`, the thermocouple field (R50). -/
def tcField (f : Frame) : BitVec 14 := f.extractLsb' 18 14

/-- `D17`, the identity bit `ID1` (R50). -/
def id1 (f : Frame) : Bool := f.getLsbD 17

/-- `D16`, the fault flag `FLT` (R50). -/
def flt (f : Frame) : Bool := f.getLsbD 16

/-- `D15..D4`, the cold-junction field (R50). -/
def cjField (f : Frame) : BitVec 12 := f.extractLsb' 4 12

/-- `D3`, the identity bit `ID0` (R50). -/
def id0 (f : Frame) : Bool := f.getLsbD 3

/-- `D2`, short to supply voltage (R50). -/
def scv (f : Frame) : Bool := f.getLsbD 2

/-- `D1`, short to ground (R50). -/
def scg (f : Frame) : Bool := f.getLsbD 1

/-- `D0`, open circuit (R50). -/
def oc (f : Frame) : Bool := f.getLsbD 0

/-- `tc_steps`: the thermocouple field as a two's-complement number (R51; 90_conflicts.md C1, C2). -/
def tcSteps (f : Frame) : Int := (tcField f).toInt

/-- `cj_steps`: the cold-junction field as a two's-complement number (R52). -/
def cjSteps (f : Frame) : Int := (cjField f).toInt

/-- `sext_32(frame[31:18])`, the `VALUE` of a thermocouple decode (R59). -/
def tcValue (f : Frame) : BitVec 32 := (tcField f).signExtend 32

/-- `sext_32(frame[15:4])`, the `VALUE` of a cold-junction decode (R59). -/
def cjValue (f : Frame) : BitVec 32 := (cjField f).signExtend 32

/-- How the host reads the `VALUE` of `TCT` and `TCT.F`: degrees Celsius, exactly (R59, R105 d). -/
def tcDegrees (v : BitVec 32) : Rat := (v.toInt : Rat) / 4

/-- How the host reads the `VALUE` of `CJT` and `CJT.F`: degrees Celsius, exactly (R59, R105 d). -/
def cjDegrees (v : BitVec 32) : Rat := (v.toInt : Rat) / 16

/-- One shift of the register: `((SHREG << 1) | zext_32(b))[31:0]` (R63, R80). -/
def shiftIn (v : Frame) (b : Bool) : Frame := (v <<< 1) ||| (BitVec.ofBool b).setWidth 32

/-- The frame that the sampled bits `b_0, b_1, …` spell, first bit most significant (R63, R35). -/
def assemble (bs : List Bool) : Frame := bs.foldl shiftIn 0#32

/-- The code of a status (30_encoding.md R57). -/
def statusCode (st : Status) : BitVec 2 :=
  match st with
  | .ok => 0#2
  | .errmark => 1#2
  | .notReady => 2#2
  | .illegal => 3#2

/-- The status of a code (30_encoding.md R57). -/
def statusOfCode (c : BitVec 2) : Status :=
  match c.toNat with
  | 0 => .ok
  | 1 => .errmark
  | 2 => .notReady
  | _ => .illegal

/-- The response word `{STATUS, VALUE}` (30_encoding.md R57). -/
def packResponse (r : Response) : RspWord := statusCode r.status ++ r.value

/-- `rsp[33:32]`, `STATUS` (30_encoding.md R57). -/
def rspStatus (w : RspWord) : Status := statusOfCode (w.extractLsb' 32 2)

/-- `rsp[31:0]`, `VALUE` (30_encoding.md R57). -/
def rspValue (w : RspWord) : BitVec 32 := w.extractLsb' 0 32

end Sys2Proof.Machine
end

