-- ==== Sys2Proof/Machine/Flags.lean ====
section
/-! DEFINITION. The flags: the frame's fault classification and identity check (41_frame_decoder.md R101, R102), the
responses they lead to (30_encoding.md R58, R59), and the status register `{READY, BUSY}` with the output ports
(10_state.md R19, 20_memory.md R31). -/

namespace Sys2Proof.Machine

/-- `faultCode`: the order of the tests is normative (R101). -/
def faultCode (f : Frame) : FaultCode :=
  if flt f = false then .ok
  else if scv f then .shortToSupply
  else if scg f then .shortToGround
  else if oc f then .openCircuit
  else .unknown

/-- The number of a fault code at the port (30_encoding.md R53). -/
def faultNumber (c : FaultCode) : BitVec 32 :=
  match c with
  | .ok => 0#32
  | .shortToSupply => 1#32
  | .shortToGround => 2#32
  | .openCircuit => 3#32
  | .unknown => 4#32

/-- `identityOk`: both identity bits are examined (R102). -/
def identityOk (f : Frame) : Bool := !id1 f && !id0 f

/-- `OK` with a value (30_encoding.md R57). -/
def okResponse (v : BitVec 32) : Response := { status := .ok, value := v }

/-- The error marker (30_encoding.md R58). -/
def markerResponse (c : Cfg) : Response := { status := .errmark, value := c.errMarker }

/-- `NOT_READY:0` (60_exceptions.md R133). -/
def notReadyResponse : Response := { status := .notReady, value := 0#32 }

/-- `ILLEGAL:0` (60_exceptions.md R134). -/
def illegalResponse : Response := { status := .illegal, value := 0#32 }

/-- What `FAULT` answers for a frame (R101). -/
def faultResponse (f : Frame) : Response := okResponse (faultNumber (faultCode f))

/-- What `IDOK` answers for a frame (R102). -/
def idokResponse (f : Frame) : Response := okResponse (if identityOk f then 1#32 else 0#32)

/-- What `TCT` answers for a frame (R103). -/
def tctResponse (c : Cfg) (f : Frame) : Response :=
  if faultCode f ≠ .ok ∨ identityOk f = false then markerResponse c else okResponse (tcValue f)

/-- What `CJT` answers for a frame (R104). -/
def cjtResponse (c : Cfg) (f : Frame) : Response :=
  if identityOk f = false then markerResponse c else okResponse (cjValue f)

/-- The read-only status register `STATUS_REG = {READY, BUSY}` (10_state.md R19). -/
def statusReg (s : State) : BitVec 2 := BitVec.ofBool s.ready ++ BitVec.ofBool s.busy

/-- The level on an output pin's line: none (`Z`) while its direction is `in` (10_state.md R20). -/
def OutPin.line (p : OutPin) : Option Level :=
  match p.dir with
  | .input => none
  | .output => some p.latch

/-- The host-side output signals (20_memory.md R31). -/
structure Outputs where
  cmdReady : Bool
  rspValid : Bool
  rsp : RspWord
  ready : Bool
  deriving DecidableEq, Repr

/-- The host-side outputs of a state: `cmd_ready = not BUSY`, `rsp_valid = RSP_VALID`, `rsp = RSP`, `ready = READY`
(20_memory.md R31). -/
def outputs (s : State) : Outputs where
  cmdReady := !s.busy
  rspValid := s.rspValid
  rsp := s.rsp
  ready := s.ready

end Sys2Proof.Machine
end

