-- ==== Sys2Proof/Machine/Ops.lean ====
section
/-! DEFINITION. The named operations: the pseudocode primitives of 00_scope.md R7, the acceptance of a command, `respond`,
reset, and the host's read of the response. The block has no memory and takes no exception (20_memory.md R30,
60_exceptions.md R130, R137): `respond` with a status is what stands in the place of an exception entry, and there is no
return. -/

namespace Sys2Proof.Machine

/-- The level of `so` at the next sample (20_memory.md R37; log entry 2). -/
def Env.nextLevel (e : Env) : Bool :=
  match e.levels with
  | b :: _ => b
  | [] => Config.freeLevel e.freeLevels

/-- The environment after one sample: that level is used up, so every sample has a level of its own (42_fresh_forms.md
R125). -/
def Env.popLevel (e : Env) : Env :=
  { e with
    levels := e.levels.tail
    freeLevels := if e.levels.isEmpty then e.freeLevels + 1 else e.freeLevels }

/-- The levels of the next `n` samples, next first. -/
def Env.levelsAhead : Nat → Env → List Bool
  | 0, _ => []
  | n + 1, e => e.nextLevel :: levelsAhead n e.popLevel

/-- The environment after `n` samples. -/
def Env.popLevels : Nat → Env → Env
  | 0, e => e
  | n + 1, e => popLevels n e.popLevel

/-- The frame that the next 32 levels of the data line spell (30_encoding.md R63). -/
def Env.frameAhead (e : Env) : Frame := assemble (e.levelsAhead 32)

/-- By how much the next wait lasts beyond its bound (00_scope.md R7; log entry 3). -/
def Env.nextDelay (e : Env) : Nat :=
  match e.delays with
  | d :: _ => d
  | [] => Config.freeDelay e.freeDelays

/-- The environment after one wait. -/
def Env.popDelay (e : Env) : Env :=
  { e with
    delays := e.delays.tail
    freeDelays := if e.delays.isEmpty then e.freeDelays + 1 else e.freeDelays }

/-- Append an event to the trace (00_scope.md R8). -/
def log (ev : Event) (s : State) : State := { s with trace := s.trace ++ [ev] }

/-- `PHASE <- p` (10_state.md R14). -/
def setPhase (p : Phase) (s : State) : State := { s with phase := p }

/-- `PinDir(p, d)` (00_scope.md R7). -/
def pinDir (p : Line) (d : Dir) (s : State) : State :=
  match p with
  | .cs => { s with cs := { s.cs with dir := d }, trace := s.trace ++ [.dir .cs d] }
  | .sck => { s with sck := { s.sck with dir := d }, trace := s.trace ++ [.dir .sck d] }
  | .so => { s with soDir := d, trace := s.trace ++ [.dir .so d] }

/-- `PinWrite(p, l)` (00_scope.md R7). It sets the output latch; the line follows when the direction is `out`
(10_state.md R20; log entry 21). -/
def pinWrite (p : OutLine) (l : Level) (s : State) : State :=
  match p with
  | .cs => { s with cs := { s.cs with latch := l }, trace := s.trace ++ [.pin .cs l] }
  | .sck => { s with sck := { s.sck with latch := l }, trace := s.trace ++ [.pin .sck l] }

/-- `Wait(>= T)`: lasts `T` or longer, with no upper bound, and ends (00_scope.md R7, 60_exceptions.md R138). `TIMER` holds
the time elapsed in it. -/
def wait (bound : Nat) (s : State) : State :=
  { s with
    timer := bound + s.env.nextDelay
    trace := s.trace ++ [.wait (bound + s.env.nextDelay)]
    env := s.env.popDelay }

/-- Start a wait: no time has elapsed in it (10_state.md R16). Only the phase-by-phase machine has a use for it. -/
def startTimer (s : State) : State := { s with timer := 0 }

/-- `SHREG <- 0x00000000; BITCNT <- 0` (40_transaction_engine.md R80). -/
def clearShift (s : State) : State := { s with shreg := 0#32, bitcnt := 0#6 }

/-- `b <- PinRead(so)`, event `Sample(BITCNT, b)`, then `SHREG <- ((SHREG << 1) | zext_32(b))[31:0]` and
`BITCNT <- BITCNT + 1` (40_transaction_engine.md R80). -/
def takeSample (s : State) : State :=
  { s with
    shreg := shiftIn s.shreg s.env.nextLevel
    bitcnt := s.bitcnt + 1#6
    trace := s.trace ++ [.sample s.bitcnt.toNat s.env.nextLevel]
    env := s.env.popLevel }

/-- The settings of `SpiBegin`: the bounded rate, most significant bit first, sampling on the falling edge, clock idle low
(40_transaction_engine.md R81; 92_eei_decisions.md D17; log entry 8). -/
def spiSettings (c : Cfg) : SpiCfg where
  rateLimit := c.fSckMax
  msbFirst := true
  sampleOnFalling := true
  clockIdle := .L

/-- `w <- SpiTransfer(32); …; SHREG <- w` (40_transaction_engine.md R81): the peripheral samples the line at 32 falling
edges and returns the samples with the first in bit 31 (60_exceptions.md R140; log entry 9). -/
def spiTransfer32 (s : State) : State :=
  { s with
    shreg := s.env.frameAhead
    trace := s.trace ++ [.spiTransfer 32 s.env.frameAhead]
    env := s.env.popLevels 32 }

/-- `READY <- 1` (40_transaction_engine.md R70). -/
def setReady (s : State) : State := { s with ready := true }

/-- `respond(s, v)`: `RSP <- {s, v}`, `RSP_VALID <- 1`, `BUSY <- 0`, `PHASE <- IDLE`, event `Resp(s, v)` (20_memory.md R34).
Every outcome of the block is one of these, the abnormal ones too (60_exceptions.md R130, R131). -/
def respond (r : Response) (s : State) : State :=
  { s with
    rsp := packResponse r
    rspValid := true
    busy := false
    phase := .idle
    trace := s.trace ++ [.resp r.status r.value] }

/-- Acceptance of a command word: `CMDREG <- cmd`, `BUSY <- 1`, `RSP_VALID <- 0` (20_memory.md R33). -/
def accept (w : CmdWord) (s : State) : State :=
  { s with cmdreg := w, busy := true, rspValid := false }

/-- The host has made its next move. -/
def withHost (rest : List HostMove) (s : State) : State := { s with env := { s.env with host := rest } }

/-- Reset (70_reset_and_hazards.md R150, R151): the state of 10_state.md R24, whatever the block was doing. `CFG` keeps its
strapped value and the environment is not part of the block. -/
def assertReset (s : State) : State := State.resetWith s.cfg s.env

/-- The host reads `rsp` (70_reset_and_hazards.md R166). While `RSP_VALID = 0` the read has no value and is a fault of the
model (10_state.md R17); otherwise the host gets `RSP`, which the block goes on holding (20_memory.md R34). -/
def readResponse (s : State) : Host.Outcome State Fault Refusal :=
  if s.rspValid then .next { s with env := { s.env with reads := s.env.reads ++ [s.rsp] } }
  else .fault .responseNotValid

/-- Place a command word as the host's next move, with the block able to accept it (20_memory.md R33: `BUSY = 0`). -/
def placeCommand (w : CmdWord) (s : State) : State :=
  { s with busy := false, phase := .idle, env := { s.env with host := .command w :: s.env.host } }

/-- Go on with a next state; a stop stays a stop. -/
def andThen (o : Host.Outcome State Fault Refusal) (k : State → Host.Outcome State Fault Refusal) :
    Host.Outcome State Fault Refusal :=
  match o with
  | .next s => k s
  | .fault r => .fault r
  | .refused r => .refused r

end Sys2Proof.Machine
end

