-- ==== Sys2Proof/Machine/Decoder.lean ====
section
/-! DEFINITION. The frame decoder on a supplied frame: the meanings of `FAULT`, `IDOK`, `TCT` and `CJT`
(41_frame_decoder.md). Each is pure: it answers from its operand and works whatever `READY` is (R100). -/

namespace Sys2Proof.Machine

/-- `FAULT frame` (R101). -/
def execFault (frame : Frame) (s : State) : Host.Outcome State Fault Refusal :=
  .next (respond (faultResponse frame) s)

/-- `IDOK frame` (R102). -/
def execIdok (frame : Frame) (s : State) : Host.Outcome State Fault Refusal :=
  .next (respond (idokResponse frame) s)

/-- `TCT frame` (R103). -/
def execTct (frame : Frame) (s : State) : Host.Outcome State Fault Refusal :=
  .next (respond (tctResponse s.cfg frame) s)

/-- `CJT frame` (R104). -/
def execCjt (frame : Frame) (s : State) : Host.Outcome State Fault Refusal :=
  .next (respond (cjtResponse s.cfg frame) s)

end Sys2Proof.Machine
end

