-- ==== Sys2Proof/Machine/Engine.lean ====
section
/-! DEFINITION. The bus transaction engine: the six protocol steps, the two transports, and the meanings of `INIT` and
`ACQ` (40_transaction_engine.md). -/

namespace Sys2Proof.Machine

/-- Protocol step 1: control line low, a short hold (R73). -/
def step1 (s : State) : State := wait s.cfg.tHold (pinWrite .cs .L s)

/-- Protocol step 2: control line high, which starts a conversion (R74). -/
def step2 (s : State) : State := pinWrite .cs .H s

/-- Protocol step 3: the settle wait (R75). -/
def step3 (s : State) : State := wait s.cfg.tSettle s

/-- Protocol step 4: control line low, which opens the output interface (R76). -/
def step4 (s : State) : State := pinWrite .cs .L s

/-- One bit cell of `BITBANG` mode: rising edge, wait, falling edge with the sample, wait (R80). -/
def bitCell (s : State) : State :=
  let rise := wait s.cfg.tHalf (pinWrite .sck .H s)
  let fall := takeSample (pinWrite .sck .L rise)
  wait fall.cfg.tHalf fall

/-- `n` bit cells, one after the other. -/
def bitCells : Nat → State → State
  | 0, s => s
  | n + 1, s => bitCells n (bitCell s)

/-- `ShiftBitbang()`: clear, lead wait, then one cell for each value 0 … 31 of `BITCNT` (R80). -/
def shiftBitbang (s : State) : State :=
  let start := clearShift s
  bitCells 32 (wait start.cfg.tHalf start)

/-- `ShiftPeriph()`: `SpiBegin(c)`, `SpiTransfer(32)`, `SpiEnd()`, `SHREG <- w` (R81). -/
def shiftPeriph (s : State) : State :=
  log .spiEnd (spiTransfer32 (log (.spiBegin (spiSettings s.cfg)) s))

/-- Protocol step 5, in the configured transport (R77, R79). -/
def step5 (s : State) : State :=
  match s.cfg.mode with
  | .bitbang => shiftBitbang s
  | .periph => shiftPeriph s

/-- Protocol step 6: control line high (R78). -/
def step6 (s : State) : State := pinWrite .cs .H s

/-- `Transaction()`: the six steps in order, with `PHASE` following them; the frame is then in `SHREG` (R72, 10_state.md
R13). -/
def transaction (s : State) : State :=
  let stopped := step1 (setPhase .stop s)
  let settled := step3 (step2 (setPhase .settle stopped))
  let opened := step4 (setPhase .opened settled)
  let shifted := step5 (setPhase .shift opened)
  step6 (setPhase .close shifted)

/-- The directions and idle levels that `INIT` sets, in the order of R70, and the initialisation of the transport. -/
def initLines (s : State) : State :=
  match s.cfg.mode with
  | .bitbang =>
    pinWrite .sck .L (pinWrite .cs .H (pinDir .so .input (pinDir .sck .output (pinDir .cs .output s))))
  | .periph => log .spiInit (pinWrite .cs .H (pinDir .cs .output s))

/-- `INIT` (R70). It has no precondition and cannot fail. -/
def execInit (s : State) : Host.Outcome State Fault Refusal :=
  let lines := initLines (setPhase .pwrup s)
  .next (respond (okResponse 0#32) (setReady (wait lines.cfg.tPowerup lines)))

/-- A command that needs the bus: with `READY = 0` it answers `NOT_READY` and does nothing else (60_exceptions.md R133);
otherwise it runs a transaction and answers what `answer` gives for the frame (R71; 42_fresh_forms.md R120). -/
def busCommand (answer : Frame → Response) (s : State) : Host.Outcome State Fault Refusal :=
  if s.ready = false then .next (respond notReadyResponse s)
  else
    let done := transaction s
    .next (respond (answer done.shreg) done)

/-- `ACQ` (R71): the answer is the frame itself. -/
def execAcq (s : State) : Host.Outcome State Fault Refusal := busCommand okResponse s

end Sys2Proof.Machine
end

