-- ==== Sys2Proof/Machine/Fresh.lean ====
section
/-! DEFINITION. The fresh forms: a transaction, then the pure decode of the frame it returned (42_fresh_forms.md R120). -/

namespace Sys2Proof.Machine

/-- `FAULT.F` (R121). -/
def execFaultF (s : State) : Host.Outcome State Fault Refusal := busCommand faultResponse s

/-- `IDOK.F` (R122). -/
def execIdokF (s : State) : Host.Outcome State Fault Refusal := busCommand idokResponse s

/-- `TCT.F` (R123). -/
def execTctF (s : State) : Host.Outcome State Fault Refusal := busCommand (tctResponse s.cfg) s

/-- `CJT.F` (R124). -/
def execCjtF (s : State) : Host.Outcome State Fault Refusal := busCommand (cjtResponse s.cfg) s

end Sys2Proof.Machine
end

