-- ==== Sys2Proof/Machine/Dispatch.lean ====
section
/-! DEFINITION. One arm per command of 30_encoding.md R56: the whole meaning of each, from acceptance to its response. -/

namespace Sys2Proof.Machine

-- The engine (40_transaction_engine.md), the decoder (41_frame_decoder.md), the fresh forms (42_fresh_forms.md).
def exec (i : Instr) (s : State) : Host.Outcome State Fault Refusal :=
  match i with
  | .init => Sys2Proof.Machine.execInit s
  | .acq => Sys2Proof.Machine.execAcq s
  | .fault frame => Sys2Proof.Machine.execFault frame s
  | .idok frame => Sys2Proof.Machine.execIdok frame s
  | .tct frame => Sys2Proof.Machine.execTct frame s
  | .cjt frame => Sys2Proof.Machine.execCjt frame s
  | .faultF => Sys2Proof.Machine.execFaultF s
  | .idokF => Sys2Proof.Machine.execIdokF s
  | .tctF => Sys2Proof.Machine.execTctF s
  | .cjtF => Sys2Proof.Machine.execCjtF s

end Sys2Proof.Machine
end

