-- ==== Sys2Proof/Machine/Sequencer.lean ====
section
/-! DEFINITION. The sequencer, position by position: what one move of a block that is in the middle of a command does.
`PHASE`, `TIMER`, `BITCNT` and the level of `sck` say where the command stands (10_state.md R14 to R16). `exec` runs a
whole command as one step; 40_transaction_engine.md R84 asks that both ways agree (log entry 1). -/

namespace Sys2Proof.Machine

/-- Whether a command needs the bus: `ACQ` and the fresh forms (10_state.md R19). -/
def usesBus (i : Instr) : Bool :=
  match i with
  | .init => false
  | .acq => true
  | .fault _ => false
  | .idok _ => false
  | .tct _ => false
  | .cjt _ => false
  | .faultF => true
  | .idokF => true
  | .tctF => true
  | .cjtF => true

/-- What a command answers once its transaction, if it has one, has put `frame` into `SHREG` (30_encoding.md R59). -/
def answerFor (c : Cfg) (i : Instr) (frame : Frame) : Response :=
  match i with
  | .init => okResponse 0#32
  | .acq => okResponse frame
  | .fault f => faultResponse f
  | .idok f => idokResponse f
  | .tct f => tctResponse c f
  | .cjt f => cjtResponse c f
  | .faultF => faultResponse frame
  | .idokF => idokResponse frame
  | .tctF => tctResponse c frame
  | .cjtF => cjtResponse c frame

/-- What the command in `CMDREG` answers at its end; a reserved word answers `ILLEGAL` (60_exceptions.md R134). -/
def finalResponse (s : State) : Response :=
  match decode s.cmdreg with
  | .ok i => answerFor s.cfg i s.shreg
  | .error _ => illegalResponse

/-- `INIT` begins: `PHASE <- PWRUP`, the lines, and the power-up wait starts (40_transaction_engine.md R70). -/
def beginInit (s : State) : State :=
  let p := setPhase .pwrup s
  match p.cfg.mode with
  | .bitbang =>
    startTimer (pinWrite .sck .L (pinWrite .cs .H (pinDir .so .input (pinDir .sck .output (pinDir .cs .output p)))))
  | .periph => startTimer (log .spiInit (pinWrite .cs .H (pinDir .cs .output p)))

/-- A transaction begins: `PHASE <- STOP`, `cs` low, and the hold starts (40_transaction_engine.md R73). -/
def beginTransaction (s : State) : State := startTimer (pinWrite .cs .L (setPhase .stop s))

/-- The first move of an accepted command: the reserved test first, then the `READY` test, then the command's own
semantics (60_exceptions.md R136 a). -/
def beginCommand (s : State) : State :=
  match decode s.cmdreg with
  | .error _ => respond illegalResponse s
  | .ok i =>
    if usesBus i then (if s.ready then beginTransaction s else respond notReadyResponse s)
    else
      match i with
      | .init => beginInit s
      | _ => respond (answerFor s.cfg i s.shreg) s

/-- In a phase that waits: wait while the timer is below the bound, then go on (60_exceptions.md R138). -/
def afterWait (bound : Nat) (s : State) (go : State) : State :=
  if s.timer < bound then wait bound s else go

/-- One move inside step 5 of `BITBANG` mode (40_transaction_engine.md R80): after each wait of `T_HALF`, a falling edge
with its sample when `sck` is high, a rising edge when it is low and bits are missing, the end of step 5 otherwise. -/
def tickShift (s : State) : State :=
  afterWait s.cfg.tHalf s
    (match s.sck.latch with
     | .H => startTimer (takeSample (pinWrite .sck .L s))
     | .L => if s.bitcnt.toNat < 32 then startTimer (pinWrite .sck .H s) else pinWrite .cs .H (setPhase .close s))

/-- One move of the sequencer, by `PHASE` (10_state.md R14, 40_transaction_engine.md R72). -/
def tick (s : State) : State :=
  match s.phase with
  | .idle => beginCommand s
  | .pwrup => afterWait s.cfg.tPowerup s (respond (finalResponse s) (setReady s))
  | .stop => afterWait s.cfg.tHold s (startTimer (pinWrite .cs .H (setPhase .settle s)))
  | .settle => afterWait s.cfg.tSettle s (pinWrite .cs .L (setPhase .opened s))
  | .opened =>
    match s.cfg.mode with
    | .bitbang => startTimer (clearShift (setPhase .shift s))
    | .periph => setPhase .shift s
  | .shift =>
    match s.cfg.mode with
    | .bitbang => tickShift s
    | .periph =>
      pinWrite .cs .H (setPhase .close (log .spiEnd (spiTransfer32 (log (.spiBegin (spiSettings s.cfg)) s))))
  | .close => respond (finalResponse s) s

/-- `n` moves of the sequencer, ending early once the command has been answered. -/
def ticks : Nat → State → State
  | 0, s => s
  | n + 1, s => if s.busy then ticks n (tick s) else s

end Sys2Proof.Machine
end

