-- ==== Sys2Proof/Machine/Port.lean ====
section
/-! DEFINITION. The host ports: how a command word is accepted and run, what a step does with the host's next move, and the
pseudo-instruction `READALL` (20_memory.md R33, R34; 30_encoding.md R65). -/

namespace Sys2Proof.Machine

/-- A command word is accepted and run to its response (20_memory.md R33, R41). A reserved word answers `ILLEGAL` whatever
`READY` is (60_exceptions.md R134, R136 a). -/
def runCommand (w : CmdWord) (s : State) : Host.Outcome State Fault Refusal :=
  match decode w with
  | .ok i => exec i (accept w s)
  | .error _ => .next (respond illegalResponse (accept w s))

/-- One step of the machine. Reset beats everything (60_exceptions.md R136 f). The host may read the response at any time.
A block that is busy goes on with its command, and a command word the host presents meanwhile is neither accepted nor
remembered (20_memory.md R33); an idle block accepts it and runs it. With no move of the host an idle block waits
(20_memory.md R40). -/
def stepHost (s : State) : Host.Outcome State Fault Refusal :=
  match s.env.host with
  | .reset :: rest => .next (assertReset (withHost rest s))
  | .readResponse :: rest => readResponse (withHost rest s)
  | .command w :: rest => if s.busy then .next (tick s) else runCommand w (withHost rest s)
  | [] => if s.busy then .next (tick s) else .next s

/-- `READALL` (30_encoding.md R65): `ACQ`, then `FAULT r`, `IDOK r`, `TCT r`, `CJT r`, where `r` is the `VALUE` of the first
response, carried by the host. If the `ACQ` answers `NOT_READY` the expansion stops there. -/
def readAll (s : State) : Host.Outcome State Fault Refusal :=
  andThen (runCommand (encode .acq) s) fun a =>
    if rspStatus a.rsp = .notReady then .next a
    else
      let r := rspValue a.rsp
      andThen (runCommand (encode (.fault r)) a) fun b =>
      andThen (runCommand (encode (.idok r)) b) fun c =>
      andThen (runCommand (encode (.tct r)) c) fun d =>
      runCommand (encode (.cjt r)) d

end Sys2Proof.Machine
end

