-- ==== Sys2Proof/Machine/Step.lean ====
section
/-! DEFINITION. The step of the machine, and how an instruction of the opcode table is placed where the step takes its next
one. -/

namespace Sys2Proof.Machine

/-- One step: the host's next move and what the block does with it. -/
def step (s : State) : Host.Outcome State Fault Refusal := Sys2Proof.Machine.stepHost s

/-- The block fetches nothing (20_memory.md R43): its next instruction is the command word the host presents next on a
command port that can accept it. So the word goes to the head of the host's moves and the block is idle (log entry 14). -/
def State.withFetchWord (s : State) (_nbits w : Nat) : State :=
  Sys2Proof.Machine.placeCommand (BitVec.ofNat 36 w) s

end Sys2Proof.Machine
end

