-- ==== Sys2Proof/Safety.lean ====
section
/-! DEFINITION. The terms in which claims speak: the invariant of a run, the shape of a transaction's trace, the time that
passes in it, and what a device is said to guarantee. -/

namespace Sys2Proof.Machine

/-! ### The invariant of a run -/

/-- The level of `cs` in each phase (10_state.md R14, column "pins while in it"; the latch is preset `H` by reset, R20). -/
def csLevelIn (p : Phase) : Level :=
  match p with
  | .idle => .H
  | .pwrup => .H
  | .stop => .L
  | .settle => .H
  | .opened => .L
  | .shift => .L
  | .close => .H

/-- The phases of a transaction (40_transaction_engine.md R72). -/
def inTransaction (p : Phase) : Bool :=
  match p with
  | .idle => false
  | .pwrup => false
  | .stop => true
  | .settle => true
  | .opened => true
  | .shift => true
  | .close => true

/-- What holds of the block at every point of a run, in the middle of a command too. -/
structure RunInv (s : State) : Prop where
  /-- The constraints on the parameters (00_scope.md R5). -/
  cfgWellFormed : s.cfg.WellFormed
  /-- `BUSY = 1` exactly when `PHASE ≠ IDLE` (10_state.md R19). -/
  busyIff : s.busy = true ↔ s.phase ≠ .idle
  /-- `RSP_VALID` is cleared when a command is accepted and set by its `respond` (10_state.md R17). -/
  validNotBusy : s.busy = true → s.rspValid = false
  /-- A valid `RSP` is the last response of the trace (10_state.md R17). -/
  rspIsLast : s.rspValid = true → s.trace.getLast? = some (.resp (rspStatus s.rsp) (rspValue s.rsp))
  /-- The block never drives the data line (10_state.md R20). -/
  soInput : s.soDir = .input
  /-- `BITCNT` is in 0 to 32 (10_state.md R15). -/
  bitcntRange : s.bitcnt.toNat ≤ 32
  /-- `cs` has the level its phase gives it (10_state.md R14). -/
  csLevel : s.cs.latch = csLevelIn s.phase
  /-- `sck` is low outside step 5 (20_memory.md R32). -/
  sckLow : s.phase ≠ .shift → s.sck.latch = .L
  /-- A high `sck` in step 5 is a cell whose bit is still to be taken (40_transaction_engine.md R80). -/
  sckHigh : s.phase = .shift → s.sck.latch = .H → s.bitcnt.toNat < 32
  /-- Before `INIT` both pins are undriven (10_state.md R24, 70_reset_and_hazards.md R167). -/
  undriven : s.ready = false → s.phase = .idle → s.cs.dir = .input ∧ s.sck.dir = .input
  /-- From `INIT` on `cs` is driven, and `sck` is in `BITBANG` mode (10_state.md R20, R22). -/
  driven : s.ready = true ∨ s.phase ≠ .idle → s.cs.dir = .output ∧ (s.cfg.mode = .bitbang → s.sck.dir = .output)
  /-- In `PERIPH` mode `sck` is no pin of this block (10_state.md R20, 20_memory.md R44). -/
  periphSck : s.cfg.mode = .periph → s.sck = { dir := .input, latch := .L }
  /-- `PWRUP` is a phase of `INIT` alone (10_state.md R14). -/
  pwrupIsInit : s.phase = .pwrup → decode s.cmdreg = .ok .init
  /-- The phases of a transaction belong to a command that uses the bus, with `READY = 1` (60_exceptions.md R133). -/
  transactionIsBus : inTransaction s.phase = true → s.ready = true ∧ ∃ i, decode s.cmdreg = .ok i ∧ usesBus i = true
  /-- When the power-up wait is over, it is in the trace (40_transaction_engine.md R70). -/
  pwrupWaited : s.phase = .pwrup → s.cfg.tPowerup ≤ s.timer → Event.wait s.timer ∈ s.trace
  /-- `READY = 1` only after a wait of `T_POWERUP` (40_transaction_engine.md R70, 70_reset_and_hazards.md R152). -/
  readyWaited : s.ready = true → ∃ d, s.cfg.tPowerup ≤ d ∧ Event.wait d ∈ s.trace

/-- "Clean entry" (10_state.md R22): idle and ready, with `cs` driven high and, in `BITBANG` mode, `sck` driven low. -/
def CleanEntry (s : State) : Prop :=
  s.phase = .idle ∧ s.ready = true ∧ s.cs = { dir := .output, latch := .H } ∧
    (s.cfg.mode = .bitbang → s.sck = { dir := .output, latch := .L })

/-! ### Traces -/

/-- The events of `INIT` before its response, with a power-up wait of `d` (40_transaction_engine.md R70). -/
def initEvents (m : Mode) (d : Nat) : List Event :=
  match m with
  | .bitbang => [.dir .cs .output, .dir .sck .output, .dir .so .input, .pin .cs .H, .pin .sck .L, .wait d]
  | .periph => [.dir .cs .output, .pin .cs .H, .spiInit, .wait d]

/-- One bit cell as it was drawn: its two waits and the level sampled between them. -/
structure Cell where
  high : Nat
  level : Bool
  low : Nat
  deriving DecidableEq, Repr

/-- The events of bit cells numbered from `k` on (40_transaction_engine.md R84). -/
def cellEvents : Nat → List Cell → List Event
  | _, [] => []
  | k, c :: cs =>
    [.pin .sck .H, .wait c.high, .pin .sck .L, .sample k c.level, .wait c.low] ++ cellEvents (k + 1) cs

/-- The events of steps 1 to 4, with the two waits drawn (40_transaction_engine.md R84). -/
def openingEvents (hold settle : Nat) : List Event :=
  [.pin .cs .L, .wait hold, .pin .cs .H, .wait settle, .pin .cs .L]

/-- The events of step 5 in `BITBANG` mode (40_transaction_engine.md R80, R84). -/
def bitbangEvents (lead : Nat) (cells : List Cell) : List Event := .wait lead :: cellEvents 0 cells

/-- The events of step 5 in `PERIPH` mode (40_transaction_engine.md R81, R84). -/
def periphEvents (c : SpiCfg) (w : Frame) : List Event := [.spiBegin c, .spiTransfer 32 w, .spiEnd]

/-- Step 5 returned `frame` with the events `evs` (40_transaction_engine.md R80, R81; 92_eei_decisions.md D17). -/
def Step5Events (c : Cfg) (frame : Frame) (evs : List Event) : Prop :=
  match c.mode with
  | .bitbang =>
    ∃ lead cells, c.tHalf ≤ lead ∧ cells.length = 32 ∧ (∀ x ∈ cells, c.tHalf ≤ x.high ∧ c.tHalf ≤ x.low) ∧
      frame = assemble (cells.map Cell.level) ∧ evs = bitbangEvents lead cells
  | .periph =>
    evs = periphEvents { rateLimit := c.fSckMax, msbFirst := true, sampleOnFalling := true, clockIdle := .L } frame

/-- `evs` is the whole trace of one transaction that returned `frame` (40_transaction_engine.md R84). -/
def TransactionEvents (c : Cfg) (frame : Frame) (evs : List Event) : Prop :=
  ∃ hold settle mid, c.tHold ≤ hold ∧ c.tSettle ≤ settle ∧ Step5Events c frame mid ∧
    evs = openingEvents hold settle ++ mid ++ [.pin .cs .H]

/-- The time that passes in the waits of a stretch of trace. Other events take no stated time (00_scope.md R8), so this is
a lower bound of the time between the ends of the stretch (log entry 26). -/
def elapsed : List Event → Nat
  | [] => 0
  | .wait d :: evs => d + elapsed evs
  | _ :: evs => elapsed evs

/-- Whether an event takes bits from the device: a sample, or a peripheral transfer or its beginning. -/
def isAcquiring (ev : Event) : Bool :=
  match ev with
  | .sample _ _ => true
  | .spiBegin _ => true
  | .spiTransfer _ _ => true
  | _ => false

/-- Whether an event is a response. -/
def isResponse (ev : Event) : Bool :=
  match ev with
  | .resp _ _ => true
  | _ => false

/-- Whether an event is a `Sample`. -/
def isSample (ev : Event) : Bool :=
  match ev with
  | .sample _ _ => true
  | _ => false

/-- Whether an event is a `Wait`. -/
def isWait (ev : Event) : Bool :=
  match ev with
  | .wait _ => true
  | _ => false

/-- Whether an event is one of the three peripheral events of a transaction (40_transaction_engine.md R81). -/
def isPeripheral (ev : Event) : Bool :=
  match ev with
  | .spiBegin _ => true
  | .spiTransfer _ _ => true
  | .spiEnd => true
  | _ => false

/-- Whether an event is a level put on `cs`. -/
def isCsLevel (ev : Event) : Bool :=
  match ev with
  | .pin .cs _ => true
  | _ => false

/-- Whether an event is the given level put on `sck`. -/
def isSckLevel (l : Level) (ev : Event) : Bool :=
  match ev with
  | .pin .sck k => decide (k = l)
  | _ => false

/-- Whether an event belongs to `BITBANG` mode alone: an `sck` level, the direction of `sck` or `so`, or a `Sample`
(10_state.md R20, 40_transaction_engine.md R81). -/
def isBitbangOnly (ev : Event) : Bool :=
  match ev with
  | .pin .sck _ => true
  | .dir .sck _ => true
  | .dir .so _ => true
  | .sample _ _ => true
  | _ => false

/-! ### Responses -/

/-- `t` is `s` after nothing but a response: `RSP`, `RSP_VALID`, `BUSY`, `PHASE` and one `Resp` event (20_memory.md R34). -/
def Answered (s t : State) (st : Status) (v : BitVec 32) : Prop :=
  t = { s with
    rsp := statusCode st ++ v
    rspValid := true
    busy := false
    phase := .idle
    trace := s.trace ++ [.resp st v] }

/-- The causes of `ERRMARK`, exactly (60_exceptions.md R132). A fresh form looks at the frame that its transaction returns:
the one that the next 32 levels of the data line spell. -/
def MarkerCause (i : Instr) (s : State) : Prop :=
  match i with
  | .tct f => f.getLsbD 16 = true ∨ f.getLsbD 17 = true ∨ f.getLsbD 3 = true
  | .cjt f => f.getLsbD 17 = true ∨ f.getLsbD 3 = true
  | .tctF =>
    s.ready = true ∧
      (s.env.frameAhead.getLsbD 16 = true ∨ s.env.frameAhead.getLsbD 17 = true ∨ s.env.frameAhead.getLsbD 3 = true)
  | .cjtF => s.ready = true ∧ (s.env.frameAhead.getLsbD 17 = true ∨ s.env.frameAhead.getLsbD 3 = true)
  | .init => False
  | .acq => False
  | .fault _ => False
  | .idok _ => False
  | .faultF => False
  | .idokF => False

/-- Whether a command is a supplied-form decode (41_frame_decoder.md). -/
def isSupplied (i : Instr) : Bool :=
  match i with
  | .fault _ => true
  | .idok _ => true
  | .tct _ => true
  | .cjt _ => true
  | .init => false
  | .acq => false
  | .faultF => false
  | .idokF => false
  | .tctF => false
  | .cjtF => false

/-- The supplied form `X frame` that a fresh form `X.F` is a decode of (42_fresh_forms.md R120). -/
def suppliedOf (i : Instr) (f : Frame) : Option Instr :=
  match i with
  | .faultF => some (.fault f)
  | .idokF => some (.idok f)
  | .tctF => some (.tct f)
  | .cjtF => some (.cjt f)
  | .init => none
  | .acq => none
  | .fault _ => none
  | .idok _ => none
  | .tct _ => none
  | .cjt _ => none

/-- The statuses that a command can give (60_exceptions.md R131). -/
def canAnswer (i : Instr) (st : Status) : Bool :=
  match st with
  | .ok => true
  | .errmark =>
    match i with
    | .tct _ => true
    | .tctF => true
    | .cjt _ => true
    | .cjtF => true
    | .init => false
    | .acq => false
    | .fault _ => false
    | .idok _ => false
    | .faultF => false
    | .idokF => false
  | .notReady => usesBus i
  | .illegal => false

/-- The phase that follows a phase inside a command (10_state.md R14, 40_transaction_engine.md R72). -/
def PhaseSuccessor (p q : Phase) : Prop :=
  (p, q) ∈ [(.idle, .pwrup), (.idle, .stop), (.pwrup, .idle), (.stop, .settle), (.settle, .opened), (.opened, .shift),
    (.shift, .close), (.close, .idle)]

/-! ### What the source says a device guarantees (20_memory.md R38): premises, never relied on by the block -/

/-- `GENUINE`: both identity bits are zero. -/
def Genuine (f : Frame) : Prop := f.getLsbD 17 = false ∧ f.getLsbD 3 = false

/-- `FAULT_CONSISTENT`: with `D16 = 0` no specific fault bit is set. -/
def FaultConsistent (f : Frame) : Prop :=
  f.getLsbD 16 = false → f.getLsbD 2 = false ∧ f.getLsbD 1 = false ∧ f.getLsbD 0 = false

/-- `ONE_FAULT`: with `D16 = 1` the three specific bits are not all set. -/
def OneFault (f : Frame) : Prop :=
  f.getLsbD 16 = true → ¬(f.getLsbD 2 = true ∧ f.getLsbD 1 = true ∧ f.getLsbD 0 = true)

/-- `DISCONNECTED`, its named case: the line answers high at each of the next 32 samples. -/
def StuckHigh (e : Env) : Prop := e.levelsAhead 32 = List.replicate 32 true

/-- A line that answers low at each of the next 32 samples (42_fresh_forms.md R122, corner cases). -/
def StuckLow (e : Env) : Prop := e.levelsAhead 32 = List.replicate 32 false

end Sys2Proof.Machine
end

