-- ==== Sys2Proof/Certificates/Slice0/Obligations.lean ====
section
/-! DEFINITION. The statements for the provers, from the numbered rules of spec/. -/

open Sys2Proof Sys2Proof.Machine

/-! ### Encoding -/

/-- Every command survives encoding and decoding: no bit of an operand is dropped (30_encoding.md R54, R56, R64). -/
def Obligations.DecodeEncodeRoundTrip : Prop :=
  ∀ i : Instr, i.wellFormed = true → decode (encode i) = .ok i

/-- A word that decodes is the encoder's word, but for the 32 bits that `INIT`, `ACQ` and the fresh forms ignore, which the
encoder writes as zeros (30_encoding.md R55, R64). -/
def Obligations.EncodeDecodeRoundTrip : Prop :=
  ∀ (w : CmdWord) (i : Instr), decode w = .ok i →
    encode i = if isSupplied i then w else w &&& 0xF00000000#36

/-- The decoder refuses exactly the six reserved selectors, by name, and any other word is the command of its selector
(30_encoding.md R56, R60). -/
def Obligations.DecodeRefusesExactlyReserved : Prop :=
  ∀ w : CmdWord,
    (w.extractLsb' 32 4 ∈ ([0x1, 0x6, 0x7, 0x8, 0xE, 0xF] : List (BitVec 4)) →
      decode w = .error (.reserved (w.extractLsb' 32 4))) ∧
    (w.extractLsb' 32 4 ∉ ([0x1, 0x6, 0x7, 0x8, 0xE, 0xF] : List (BitVec 4)) →
      ∃ i : Instr, decode w = .ok i ∧ i.selector = w.extractLsb' 32 4)

/-- R55: the operand is an immediate taken as it stands by the four supplied forms, and ignored, whatever its value, by
`INIT`, `ACQ` and the four fresh forms. -/
def Obligations.OperandTakenAsItStandsOrIgnored : Prop :=
  ∀ x : Frame,
    decode (0x2#4 ++ x) = .ok (.fault x) ∧ decode (0x3#4 ++ x) = .ok (.idok x) ∧
    decode (0x4#4 ++ x) = .ok (.tct x) ∧ decode (0x5#4 ++ x) = .ok (.cjt x) ∧
    decode (0x0#4 ++ x) = .ok .init ∧ decode (0x9#4 ++ x) = .ok .acq ∧
    decode (0xA#4 ++ x) = .ok .faultF ∧ decode (0xB#4 ++ x) = .ok .idokF ∧
    decode (0xC#4 ++ x) = .ok .tctF ∧ decode (0xD#4 ++ x) = .ok .cjtF

/-- Words that the spec writes out decode to the commands they stand for (R64 and the worked examples of R70, R71, R101 to
R104, R121 to R124; 95_test_vectors.md T4). -/
def Obligations.SpecWordsDecode : Prop :=
  decode 0x000000000#36 = .ok .init ∧ decode 0x900000000#36 = .ok .acq ∧ decode 0x9DEADBEEF#36 = .ok .acq ∧
  decode 0x200010002#36 = .ok (.fault 0x00010002#32) ∧ decode 0x300020000#36 = .ok (.idok 0x00020000#32) ∧
  decode 0x4015002C0#36 = .ok (.tct 0x015002C0#32) ∧ decode 0x5015002C0#36 = .ok (.cjt 0x015002C0#32) ∧
  decode 0xA00000000#36 = .ok .faultF ∧ decode 0xB00000000#36 = .ok .idokF ∧
  decode 0xC00000000#36 = .ok .tctF ∧ decode 0xD00000000#36 = .ok .cjtF ∧
  decode 0x700000000#36 = .error (.reserved 0x7#4)

/-! ### The ports and the step -/

/-- A step runs the decoded instruction. What the step adds around `exec` is the acceptance: the host's move is used up,
`CMDREG` holds the word, `BUSY` is set and `RSP_VALID` cleared (20_memory.md R33). -/
def Obligations.StepRunsDecodedCommand : Prop :=
  ∀ (s : State) (w : CmdWord) (rest : List HostMove) (i : Instr),
    s.busy = false → s.env.host = .command w :: rest → decode w = .ok i →
      step s = exec i { s with
        cmdreg := w
        busy := true
        rspValid := false
        env := { s.env with host := rest } }

/-- R134, R60: a reserved word is accepted like any other, changes nothing but `CMDREG`, `BUSY`, `RSP` and `RSP_VALID`,
whatever `READY` is, and answers `ILLEGAL:0` in a single event. -/
def Obligations.ReservedWordAnswersIllegal : Prop :=
  ∀ (s : State) (w : CmdWord) (rest : List HostMove),
    s.busy = false → s.phase = .idle → s.env.host = .command w :: rest →
    w.extractLsb' 32 4 ∈ ([0x1, 0x6, 0x7, 0x8, 0xE, 0xF] : List (BitVec 4)) →
      step s = .next { s with
        cmdreg := w
        rsp := 3#2 ++ 0#32
        rspValid := true
        trace := s.trace ++ [.resp .illegal 0#32]
        env := { s.env with host := rest } }

/-- With no move of the host an idle block waits (20_memory.md R40: "`PHASE = IDLE`, waiting for a command"). -/
def Obligations.IdleBlockWaits : Prop :=
  ∀ s : State, s.busy = false → s.env.host = [] → step s = .next s

/-- While `BUSY = 1` nothing on `cmd` is accepted or remembered, and `CMDREG` does not change (20_memory.md R33; 10_state.md
R12): the block goes on with the command it has, and no step of a busy block other than reset changes `CMDREG`, whatever the
host does meanwhile. That the host still presents its word (`t.env.host`) is the model's choice, not R33's (log entry 4). -/
def Obligations.BusyBlockAcceptsNothing : Prop :=
  (∀ (s : State) (w : CmdWord) (rest : List HostMove),
    s.busy = true → s.env.host = .command w :: rest →
      ∃ t, step s = .next t ∧ t.cmdreg = s.cmdreg ∧ t.env.host = .command w :: rest ∧ t.cfg = s.cfg ∧
        t.env.reads = s.env.reads) ∧
  (∀ s t : State, s.busy = true → step s = .next t → (∀ rest, s.env.host ≠ .reset :: rest) → t.cmdreg = s.cmdreg)

/-- The host's read of `RSP` (10_state.md R17, 20_memory.md R34): a fault while `RSP_VALID = 0`, otherwise the host gets the
word and the block goes on holding it. -/
def Obligations.ResponseReadNeedsValid : Prop :=
  ∀ (s : State) (rest : List HostMove), s.env.host = .readResponse :: rest →
    (s.rspValid = false → step s = .fault .responseNotValid) ∧
    (s.rspValid = true →
      step s = .next { s with env := { s.env with host := rest, reads := s.env.reads ++ [s.rsp] } })

/-- Reset (70_reset_and_hazards.md R150, R151; 10_state.md R24; 60_exceptions.md R136 f): the state that R24 gives, for every
field to which it gives a value; no response happens, both pins are undriven and `CFG` keeps its strapped value. Two clauses
are the model's choice: that the model has the move while `BUSY = 1` (log entry 11: R151 gives its effect, but R151 and R166
put such a run outside every claim), and that reset leaves the environment as it was (log entries 11 and 25). -/
def Obligations.ResetFromEveryState : Prop :=
  ∀ (s : State) (rest : List HostMove), s.env.host = .reset :: rest →
    ∃ t, step s = .next t ∧ t.phase = .idle ∧ t.ready = false ∧ t.busy = false ∧ t.rspValid = false ∧
      t.cs = { dir := .input, latch := .H } ∧ t.sck = { dir := .input, latch := .L } ∧ t.soDir = .input ∧
      t.cs.line = none ∧ t.sck.line = none ∧ t.cfg = s.cfg ∧ t.trace = [] ∧ t.env = { s.env with host := rest }

/-- The state after reset (10_state.md R24), for every field to which R24 gives a value and for every strapping; the
model's `State.reset` is one of them. Which strapping it is, is the model's choice (log entry 6). -/
def Obligations.ResetStateIsTheSpecs : Prop :=
  (∀ (c : Cfg) (e : Env),
    (State.resetWith c e).phase = .idle ∧ (State.resetWith c e).ready = false ∧ (State.resetWith c e).busy = false ∧
    (State.resetWith c e).rspValid = false ∧ (State.resetWith c e).cs = { dir := .input, latch := .H } ∧
    (State.resetWith c e).sck = { dir := .input, latch := .L } ∧ (State.resetWith c e).soDir = .input ∧
    (State.resetWith c e).cfg = c ∧ (State.resetWith c e).trace = []) ∧
  ∃ c e, State.reset = State.resetWith c e

/-! ### INIT and ACQ -/

/-- R70: `INIT`, in both modes and whatever `READY` is: its encoding with the operand ignored, its events in order, the wait
of at least `T_POWERUP`, `READY`, the response `OK:0`, and what it leaves alone (`SHREG` and `BITCNT` among it). -/
def Obligations.InitSetsUpTheBlock : Prop :=
  (∀ x : Frame, decode (0x0#4 ++ x) = .ok .init) ∧
  ∀ s : State, ∃ d t, s.cfg.tPowerup ≤ d ∧ exec .init s = .next t ∧
    t.trace = s.trace ++ initEvents s.cfg.mode d ++ [.resp .ok 0#32] ∧
    t.ready = true ∧ t.busy = false ∧ t.phase = .idle ∧ t.rspValid = true ∧ t.rsp = 0#2 ++ 0#32 ∧
    t.cs = { dir := .output, latch := .H } ∧
    (s.cfg.mode = .bitbang → t.sck = { dir := .output, latch := .L } ∧ t.soDir = .input) ∧
    (s.cfg.mode = .periph → t.sck = s.sck ∧ t.soDir = s.soDir) ∧
    t.cmdreg = s.cmdreg ∧ t.shreg = s.shreg ∧ t.bitcnt = s.bitcnt ∧ t.cfg = s.cfg ∧
    t.env.host = s.env.host ∧ t.env.levels = s.env.levels ∧ t.env.freeLevels = s.env.freeLevels ∧
    t.env.reads = s.env.reads

/-- After `INIT` the timer still holds the length of the power-up wait that its trace records, which lasted at least
`T_POWERUP`. R16 and R70 do not say what `TIMER` holds once a wait is over: that is the model's choice (log entry 20). -/
def Obligations.InitLeavesItsWaitInTheTimer : Prop :=
  ∀ s : State, ∃ t, exec .init s = .next t ∧ s.cfg.tPowerup ≤ t.timer ∧
    t.trace = s.trace ++ initEvents s.cfg.mode t.timer ++ [.resp .ok 0#32]

/-- R71: `ACQ` with `READY = 1` runs one transaction and answers `OK` with the frame that the 32 levels of the data line
spell, whatever they are, and ends with `cs = H` and, in `BITBANG` mode, `sck = L`; with `READY = 0` it answers
`NOT_READY:0` with no pin event. The operand of its word is ignored. -/
def Obligations.AcqReturnsTheFrame : Prop :=
  (∀ x : Frame, decode (0x9#4 ++ x) = .ok .acq) ∧
  ∀ s : State,
    (s.ready = false → ∃ t, exec .acq s = .next t ∧ Answered s t .notReady 0#32) ∧
    (s.ready = true → ∃ evs t, exec .acq s = .next t ∧
      TransactionEvents s.cfg s.env.frameAhead evs ∧ t.trace = s.trace ++ evs ++ [.resp .ok s.env.frameAhead] ∧
      t.rsp = 0#2 ++ s.env.frameAhead ∧ t.rspValid = true ∧ t.busy = false ∧ t.phase = .idle ∧ t.ready = true ∧
      t.shreg = s.env.frameAhead ∧ t.cs = { s.cs with latch := .H } ∧
      (s.cfg.mode = .bitbang → t.sck = { s.sck with latch := .L } ∧ t.bitcnt = 32#6) ∧
      (s.cfg.mode = .periph → t.sck = s.sck ∧ t.bitcnt = s.bitcnt) ∧
      t.soDir = s.soDir ∧ t.cmdreg = s.cmdreg ∧ t.cfg = s.cfg)

/-- The event counts of one transaction (40_transaction_engine.md, section 5, the whole trace; derived there from R72 to
R81): a `BITBANG` transaction has 4 `cs` events, 64 `sck` events (32 rising, 32 falling), 32 samples and 67 waits; a
`PERIPH` transaction has 4 `cs` events, 3 peripheral events and 2 waits. For `ACQ` and every fresh form. -/
def Obligations.TransactionEventCounts : Prop :=
  ∀ (i : Instr) (s : State), usesBus i = true → s.ready = true →
    ∃ evs t st v, exec i s = .next t ∧ t.trace = s.trace ++ evs ++ [.resp st v] ∧
      evs.countP isCsLevel = 4 ∧
      (s.cfg.mode = .bitbang →
        evs.countP (isSckLevel .H) = 32 ∧ evs.countP (isSckLevel .L) = 32 ∧ evs.countP isSample = 32 ∧
        evs.countP isWait = 67 ∧ evs.countP isPeripheral = 0) ∧
      (s.cfg.mode = .periph →
        evs.countP (isSckLevel .H) = 0 ∧ evs.countP (isSckLevel .L) = 0 ∧ evs.countP isSample = 0 ∧
        evs.countP isWait = 2 ∧ evs.countP isPeripheral = 3)

/-- R79: the two transports give bit-identical results. For every state and every command that uses the bus, the same levels
of the data line give the same frame and the same response in both modes; that frame is the assembly of those 32 levels;
the traces differ only between step 4 and step 6 (`mid1` against `mid2`). -/
def Obligations.TransportsAgree : Prop :=
  ∀ (i : Instr) (s : State), usesBus i = true → s.ready = true →
    ∃ t u hold settle mid1 mid2 st v,
      exec i { s with cfg := { s.cfg with mode := .bitbang } } = .next t ∧
      exec i { s with cfg := { s.cfg with mode := .periph } } = .next u ∧
      t.shreg = u.shreg ∧ t.shreg = assemble (s.env.levelsAhead 32) ∧ t.rsp = u.rsp ∧ t.cs = u.cs ∧
      t.trace = s.trace ++ openingEvents hold settle ++ mid1 ++ [.pin .cs .H, .resp st v] ∧
      u.trace = s.trace ++ openingEvents hold settle ++ mid2 ++ [.pin .cs .H, .resp st v] ∧
      (∀ e ∈ mid1, isBitbangOnly e = true ∨ ∃ d, e = .wait d) ∧
      mid2 = periphEvents (spiSettings s.cfg) (assemble (s.env.levelsAhead 32))

/-- R81: step 5 in `PERIPH` mode, of `ACQ` and of every fresh form. Between the `cs` low of step 4 and the `cs` high of step 6
there are `SpiBegin(c)`, one `SpiTransfer(32)` and `SpiEnd` and nothing else, so no `sck` level and no sample; `c` is a rate of
at most `F_SCK_MAX`, most significant bit first, sampling on the falling edge, clock idle low (92_eei_decisions.md D17); the
word that the transfer returns, first bit received in bit 31, is what `SHREG` then holds; `BITCNT` is not used. -/
def Obligations.PeriphShiftIsOneTransfer : Prop :=
  ∀ (i : Instr) (s : State), usesBus i = true → s.ready = true → s.cfg.mode = .periph →
    ∃ t hold settle w st v, exec i s = .next t ∧
      t.trace = s.trace ++ [.pin .cs .L, .wait hold, .pin .cs .H, .wait settle, .pin .cs .L,
        .spiBegin { rateLimit := s.cfg.fSckMax, msbFirst := true, sampleOnFalling := true, clockIdle := .L },
        .spiTransfer 32 w, .spiEnd, .pin .cs .H, .resp st v] ∧
      t.shreg = w ∧ (∀ k, k < 32 → w.getLsbD (31 - k) = (s.env.levelsAhead 32).getD k false) ∧
      t.sck = s.sck ∧ t.bitcnt = s.bitcnt

/-- R63: the frame assembled from 32 sampled bits: bit `31 − k` is the `k`-th sample, the sum of `b_k * 2^(31 − k)` is its
value, and the register's old content does not matter. No bit is inverted, masked or reordered. -/
def Obligations.FrameAssembly : Prop :=
  ∀ bs : List Bool, bs.length = 32 →
    (∀ k, k < 32 → (assemble bs).getLsbD (31 - k) = bs.getD k false) ∧
    (assemble bs).toNat = ((List.range 32).map fun k => (bs.getD k false).toNat * 2 ^ (31 - k)).sum ∧
    ∀ v : Frame, bs.foldl (fun (r : Frame) (b : Bool) => (r <<< 1) ||| (BitVec.ofBool b).setWidth 32) v = assemble bs

/-- R133: with `READY = 0`, `ACQ` and every fresh form answer `NOT_READY:0` and do nothing else at all. -/
def Obligations.BusCommandNeedsReady : Prop :=
  ∀ (i : Instr) (s : State), i ∈ [Instr.acq, .faultF, .idokF, .tctF, .cjtF] → s.ready = false →
    ∃ t, exec i s = .next t ∧ Answered s t .notReady 0#32 ∧ t.ready = false

/-- The settle bound (40_transaction_engine.md, R82; its stronger form is marked as derived there): in every transaction at
least `T_HOLD` passes between the falling and the rising edge of the start pulse, and at least `T_SETTLE` between that
rising edge and the next `cs` low, before which nothing is sampled; so also before the response. -/
def Obligations.SettleBeforeSampling : Prop :=
  ∀ (i : Instr) (s : State), usesBus i = true → s.ready = true →
    ∃ t hold settle rest st v, exec i s = .next t ∧
      t.trace = s.trace ++ [.pin .cs .L] ++ hold ++ [.pin .cs .H] ++ settle ++ [.pin .cs .L] ++ rest ++ [.resp st v] ∧
      s.cfg.tHold ≤ elapsed hold ∧ s.cfg.tSettle ≤ elapsed settle ∧
      (∀ e ∈ hold ++ settle, isAcquiring e = false) ∧ ∃ e ∈ rest, isAcquiring e = true

/-- What a transaction costs (70_reset_and_hazards.md R156, derived there): at least `T_HOLD + T_SETTLE + 65 * T_HALF` in
`BITBANG` mode, and at least `T_HOLD + T_SETTLE` in `PERIPH` mode (95_test_vectors.md P3). -/
def Obligations.TransactionTakesTime : Prop :=
  ∀ (i : Instr) (s : State), usesBus i = true → s.ready = true →
    ∃ t evs, exec i s = .next t ∧ t.trace = s.trace ++ evs ∧
      s.cfg.tHold + s.cfg.tSettle + (if s.cfg.mode = .bitbang then 65 * s.cfg.tHalf else 0) ≤ elapsed evs

/-! ### The decoder on a supplied frame -/

/-- R101: `FAULT frame`, by the normative order of the tests: `D16`, then `D2`, `D1`, `D0`. -/
def Obligations.FaultClassifies : Prop :=
  ∀ f : Frame, decode (0x2#4 ++ f) = .ok (.fault f) ∧
    ∀ s : State, ∃ t v, exec (.fault f) s = .next t ∧ Answered s t .ok v ∧
      (f.getLsbD 16 = false → v = 0#32) ∧
      (f.getLsbD 16 = true → f.getLsbD 2 = true → v = 1#32) ∧
      (f.getLsbD 16 = true → f.getLsbD 2 = false → f.getLsbD 1 = true → v = 2#32) ∧
      (f.getLsbD 16 = true → f.getLsbD 2 = false → f.getLsbD 1 = false → f.getLsbD 0 = true → v = 3#32) ∧
      (f.getLsbD 16 = true → f.getLsbD 2 = false → f.getLsbD 1 = false → f.getLsbD 0 = false → v = 4#32)

/-- R102: `IDOK frame` passes exactly when both identity bits are zero; a failed check is an `OK` response of value 0. -/
def Obligations.IdokChecksBothBits : Prop :=
  ∀ f : Frame, decode (0x3#4 ++ f) = .ok (.idok f) ∧
    ∀ s : State, ∃ t v, exec (.idok f) s = .next t ∧ Answered s t .ok v ∧
      (f.getLsbD 17 = false ∧ f.getLsbD 3 = false → v = 1#32) ∧
      (f.getLsbD 17 = true ∨ f.getLsbD 3 = true → v = 0#32)

/-- R103: `TCT frame`: the marker unless the fault code is `Ok` and the identity passes, which is when `D16`, `D17` and `D3`
are zero; otherwise the signed 14-bit field `D31..D18`, sign-extended, in −8192 … 8191, a quarter degree per step. -/
def Obligations.TctDecodes : Prop :=
  ∀ f : Frame, decode (0x4#4 ++ f) = .ok (.tct f) ∧
    ((faultCode f ≠ .ok ∨ identityOk f = false) ↔
      (f.getLsbD 16 = true ∨ f.getLsbD 17 = true ∨ f.getLsbD 3 = true)) ∧
    ∀ s : State, ∃ t, exec (.tct f) s = .next t ∧
      (faultCode f ≠ .ok ∨ identityOk f = false → Answered s t .errmark s.cfg.errMarker) ∧
      (faultCode f = .ok ∧ identityOk f = true →
        ∃ v : BitVec 32, Answered s t .ok v ∧ v = (f.extractLsb' 18 14).signExtend 32 ∧
          v.toInt = (f.extractLsb' 18 14).toInt ∧ -8192 ≤ v.toInt ∧ v.toInt ≤ 8191 ∧
          tcDegrees v = (tcSteps f : Rat) * (1 / 4))

/-- R104: `CJT frame`: the marker exactly when the identity fails, whatever the fault bits are; otherwise the frame is masked
to its low 16 bits, the low 4 are shifted out, and the remaining signed 12-bit field is the value, a sixteenth of a degree
per step. -/
def Obligations.CjtDecodes : Prop :=
  ∀ f : Frame, decode (0x5#4 ++ f) = .ok (.cjt f) ∧
    (identityOk f = false ↔ (f.getLsbD 17 = true ∨ f.getLsbD 3 = true)) ∧
    ∀ s : State, ∃ t, exec (.cjt f) s = .next t ∧
      (identityOk f = false → Answered s t .errmark s.cfg.errMarker) ∧
      (identityOk f = true →
        ∃ v : BitVec 32, Answered s t .ok v ∧ v = (f.extractLsb' 4 12).signExtend 32 ∧
          v.toInt = (if ((f &&& 0xFFFF#32) >>> 4).toNat < 2048 then (((f &&& 0xFFFF#32) >>> 4).toNat : Int)
            else (((f &&& 0xFFFF#32) >>> 4).toNat : Int) - 4096) ∧
          -2048 ≤ v.toInt ∧ v.toInt ≤ 2047 ∧ cjDegrees v = (cjSteps f : Rat) * (1 / 16))

/-- R53: the five fault codes, their numbers and when each is selected. No other number is ever produced. -/
def Obligations.FaultCodesAreTheFive : Prop :=
  ∀ f : Frame,
    (f.getLsbD 16 = false → faultCode f = .ok) ∧
    (f.getLsbD 16 = true ∧ f.getLsbD 2 = true → faultCode f = .shortToSupply) ∧
    (f.getLsbD 16 = true ∧ f.getLsbD 2 = false ∧ f.getLsbD 1 = true → faultCode f = .shortToGround) ∧
    (f.getLsbD 16 = true ∧ f.getLsbD 2 = false ∧ f.getLsbD 1 = false ∧ f.getLsbD 0 = true →
      faultCode f = .openCircuit) ∧
    (f.getLsbD 16 = true ∧ f.getLsbD 2 = false ∧ f.getLsbD 1 = false ∧ f.getLsbD 0 = false →
      faultCode f = .unknown) ∧
    faultNumber .ok = 0#32 ∧ faultNumber .shortToSupply = 1#32 ∧ faultNumber .shortToGround = 2#32 ∧
    faultNumber .openCircuit = 3#32 ∧ faultNumber .unknown = 4#32 ∧
    (faultNumber (faultCode f)).toNat ≤ 4

/-- R51: `tc_steps` and its equivalent forms, for every frame: the arithmetic right shift by 18 of the frame taken as signed,
and the logical shift with sign extension from bit 13. `D31` is its sign. The temperature it denotes is a quarter of it,
from −2048.00 to +2047.75 degrees. -/
def Obligations.ThermocoupleFieldForms : Prop :=
  ∀ f : Frame,
    tcSteps f = (f.extractLsb' 18 14).toInt ∧ tcSteps f = (f.sshiftRight 18).toInt ∧
    tcSteps f = (((f >>> 18).extractLsb' 0 14).signExtend 32).toInt ∧
    -8192 ≤ tcSteps f ∧ tcSteps f ≤ 8191 ∧ (f.getLsbD 31 = true ↔ tcSteps f < 0) ∧
    tcDegrees (tcValue f) = (tcSteps f : Rat) * (1 / 4) ∧
    -2048 ≤ tcDegrees (tcValue f) ∧ tcDegrees (tcValue f) ≤ 8191 / 4

/-- R52: `cj_steps` and the source's recipe: mask to 16 bits, shift out 4, and subtract 4096 from 2048 on. Bits `D31..D16` and
`D3..D0` do not enter. The temperature is a sixteenth of it, from −128 to +127.9375 degrees. -/
def Obligations.ColdJunctionFieldForms : Prop :=
  ∀ f : Frame,
    cjSteps f = (f.extractLsb' 4 12).toInt ∧
    cjSteps f = (if ((f &&& 0xFFFF#32) >>> 4).toNat < 2048 then (((f &&& 0xFFFF#32) >>> 4).toNat : Int)
      else (((f &&& 0xFFFF#32) >>> 4).toNat : Int) - 4096) ∧
    (∀ g : Frame, (∀ k, 4 ≤ k → k ≤ 15 → f.getLsbD k = g.getLsbD k) → cjSteps f = cjSteps g) ∧
    -2048 ≤ cjSteps f ∧ cjSteps f ≤ 2047 ∧ (f.getLsbD 15 = true ↔ cjSteps f < 0) ∧
    cjDegrees (cjValue f) = (cjSteps f : Rat) * (1 / 16) ∧
    -128 ≤ cjDegrees (cjValue f) ∧ cjDegrees (cjValue f) ≤ 2047 / 16

/-- Every temperature can be read, with the right sign (41_frame_decoder.md, R103 corner case a and R104 corner case a;
95_test_vectors.md L-9): the frame whose field is `m` and whose other bits are zero gives `OK` and `m` steps. -/
def Obligations.EveryStepCountIsRead : Prop :=
  ∀ (s : State) (m : Int),
    (-8192 ≤ m → m ≤ 8191 →
      ∃ t v, exec (.tct (BitVec.ofInt 32 (m % 16384) <<< 18)) s = .next t ∧ Answered s t .ok v ∧ v.toInt = m) ∧
    (-2048 ≤ m → m ≤ 2047 →
      ∃ t v, exec (.cjt (BitVec.ofInt 32 (m % 4096) <<< 4)) s = .next t ∧ Answered s t .ok v ∧ v.toInt = m)

/-- Which frame bits each result reads (41_frame_decoder.md R106; the row of `TCT` is marked as derived there): frames that
agree on those bits have the same result, whatever their other bits are. -/
def Obligations.ResultsReadOnlyTheirBits : Prop :=
  ∀ (c : Cfg) (f g : Frame),
    ((∀ k ∈ [16, 2, 1, 0], f.getLsbD k = g.getLsbD k) → faultResponse f = faultResponse g) ∧
    ((∀ k ∈ [17, 3], f.getLsbD k = g.getLsbD k) → idokResponse f = idokResponse g) ∧
    ((∀ k, (16 ≤ k ∧ k ≤ 31) ∨ k = 3 → f.getLsbD k = g.getLsbD k) → tctResponse c f = tctResponse c g) ∧
    ((∀ k, k = 17 ∨ (3 ≤ k ∧ k ≤ 15) → f.getLsbD k = g.getLsbD k) → cjtResponse c f = cjtResponse c g)

/-- R132: the causes of `ERRMARK`, exactly, for every command: a frame's `D16`, `D17` or `D3` for `TCT` and `TCT.F`, its `D17`
or `D3` for `CJT` and `CJT.F`, nothing for any other command. The marker records nothing about its cause. -/
def Obligations.MarkerHasExactlyItsCauses : Prop :=
  ∀ (i : Instr) (s : State), ∃ t, exec i s = .next t ∧
    (rspStatus t.rsp = .errmark ↔ MarkerCause i s) ∧
    (rspStatus t.rsp = .errmark → rspValue t.rsp = s.cfg.errMarker)

/-- The marker cannot be mistaken for a temperature (30_encoding.md R58; 95_test_vectors.md L-7): whatever the marker is
within the constraint of 00_scope.md R5, no `OK` answer of a temperature decode has its value. -/
def Obligations.MarkerIsNoTemperature : Prop :=
  ∀ (i : Instr) (s : State), s.cfg.MarkerOutside →
    ((∃ f, i = .tct f) ∨ (∃ f, i = .cjt f) ∨ i = .tctF ∨ i = .cjtF) →
    ∃ t, exec i s = .next t ∧ (rspStatus t.rsp = .ok → rspValue t.rsp ≠ s.cfg.errMarker ∧
      -8192 ≤ (rspValue t.rsp).toInt ∧ (rspValue t.rsp).toInt ≤ 8191)

/-- R100: a supplied-form decode is pure. A step that accepts its word writes `CMDREG`, `BUSY`, `RSP` and `RSP_VALID` and
nothing else, whatever `READY` is; its trace is one `Resp` event; its answer is a function of the command alone (and of
the marker that the instance is built with), so decoding twice gives the same; it never answers `NOT_READY` or `ILLEGAL`,
and `FAULT` and `IDOK` only answer `OK`. -/
def Obligations.SuppliedDecodesArePure : Prop :=
  ∀ i : Instr, isSupplied i = true → ∀ c : Cfg, ∃ st v, (st = .ok ∨ st = .errmark) ∧
    ((∃ f, i = .fault f ∨ i = .idok f) → st = .ok) ∧
    ∀ (s : State) (rest : List HostMove), s.cfg = c → s.busy = false → s.phase = .idle →
      s.env.host = .command (encode i) :: rest →
      step s = .next { s with
        cmdreg := encode i
        rsp := statusCode st ++ v
        rspValid := true
        trace := s.trace ++ [.resp st v]
        env := { s.env with host := rest } }

/-! ### The fresh forms -/

/-- R120: a fresh form is a transaction followed by the pure decode of the frame it returned. With `READY = 1` it ends in the
state in which `ACQ` ends, but for the response, which is the one that `X frame` gives; the trace before it is exactly that
of the `ACQ`. With `READY = 0` it answers `NOT_READY:0`. The operand of its word is ignored. -/
def Obligations.FreshIsAcquireThenDecode : Prop :=
  ∀ (i : Instr) (s : State), i ∈ [Instr.faultF, .idokF, .tctF, .cjtF] →
    (∀ x : Frame, decode (i.selector ++ x) = .ok i) ∧
    (s.ready = false → ∃ t, exec i s = .next t ∧ Answered s t .notReady 0#32) ∧
    (s.ready = true → ∃ a t u evs j,
      exec .acq s = .next a ∧ suppliedOf i (rspValue a.rsp) = some j ∧ exec j s = .next u ∧
      a.trace = s.trace ++ evs ++ [.resp .ok (rspValue a.rsp)] ∧
      exec i s = .next t ∧
      t = { a with
        rsp := u.rsp
        trace := s.trace ++ evs ++ [.resp (rspStatus u.rsp) (rspValue u.rsp)] })

/-- Two transactions never share a sample (42_fresh_forms.md R125): whatever two frames are wanted, there are answers of the
line with which two transactions in a row return them, so nothing ties the second to the first. Stated of two `ACQ`s and of
`TCT.F` followed by `CJT.F`. -/
def Obligations.TransactionsAreIndependent : Prop :=
  ∀ (s : State) (f g : Frame), s.ready = true →
    ∃ bs : List Bool,
      (∃ a b, exec .acq { s with env := { s.env with levels := bs } } = .next a ∧ exec .acq a = .next b ∧
        rspValue a.rsp = f ∧ rspValue b.rsp = g) ∧
      (∃ a b, exec .tctF { s with env := { s.env with levels := bs } } = .next a ∧ exec .cjtF a = .next b ∧
        a.rsp = packResponse (tctResponse s.cfg f) ∧ b.rsp = packResponse (cjtResponse s.cfg g))

/-- A line stuck high or low (40_transaction_engine.md R71, 42_fresh_forms.md R121, R122, corner cases; 95_test_vectors.md P3):
the frame is all ones or all zeros, no command hangs, and the identity check tells the first from a device and not the
second. -/
def Obligations.StuckLineAnswers : Prop :=
  ∀ s : State, s.ready = true →
    (StuckHigh s.env →
      (∃ t, exec .acq s = .next t ∧ t.rsp = 0#2 ++ 0xFFFFFFFF#32) ∧
      (∃ t, exec .faultF s = .next t ∧ t.rsp = 0#2 ++ 1#32) ∧
      (∃ t, exec .idokF s = .next t ∧ t.rsp = 0#2 ++ 0#32) ∧
      (∃ t, exec .tctF s = .next t ∧ t.rsp = 1#2 ++ s.cfg.errMarker) ∧
      (∃ t, exec .cjtF s = .next t ∧ t.rsp = 1#2 ++ s.cfg.errMarker)) ∧
    (StuckLow s.env →
      (∃ t, exec .acq s = .next t ∧ t.rsp = 0#2 ++ 0#32) ∧
      (∃ t, exec .faultF s = .next t ∧ t.rsp = 0#2 ++ 0#32) ∧
      (∃ t, exec .idokF s = .next t ∧ t.rsp = 0#2 ++ 1#32) ∧
      (∃ t, exec .tctF s = .next t ∧ t.rsp = 0#2 ++ 0#32) ∧
      (∃ t, exec .cjtF s = .next t ∧ t.rsp = 0#2 ++ 0#32))

/-! ### All commands -/

/-- `VALUE` by command when `STATUS = OK` (30_encoding.md R59, the table), with the bits written out; `frame` is the operand
of a supplied form and the frame that the next 32 levels spell for `ACQ` and the fresh forms. Every command answers. -/
def Obligations.ValueByCommand : Prop :=
  ∀ (i : Instr) (s : State), ∃ t, exec i s = .next t ∧ (rspStatus t.rsp = .ok →
    rspValue t.rsp =
      (match i with
        | .init => 0#32
        | .acq => s.env.frameAhead
        | .fault f => faultNumber (faultCode f)
        | .idok f => if f.getLsbD 17 = false ∧ f.getLsbD 3 = false then 1#32 else 0#32
        | .tct f => (f.extractLsb' 18 14).signExtend 32
        | .cjt f => (f.extractLsb' 4 12).signExtend 32
        | .faultF => faultNumber (faultCode s.env.frameAhead)
        | .idokF => if s.env.frameAhead.getLsbD 17 = false ∧ s.env.frameAhead.getLsbD 3 = false then 1#32 else 0#32
        | .tctF => (s.env.frameAhead.extractLsb' 18 14).signExtend 32
        | .cjtF => (s.env.frameAhead.extractLsb' 4 12).signExtend 32))

/-- Which command can give which status, and the value that goes with a status other than `OK` (60_exceptions.md R131, the
table). No command answers `ILLEGAL`; that is for reserved words. -/
def Obligations.StatusesByCommand : Prop :=
  ∀ (i : Instr) (s : State), ∃ t, exec i s = .next t ∧ canAnswer i (rspStatus t.rsp) = true ∧
    (rspStatus t.rsp = .notReady ↔ usesBus i = true ∧ s.ready = false) ∧
    (rspStatus t.rsp = .notReady → rspValue t.rsp = 0#32) ∧
    (rspStatus t.rsp = .errmark → rspValue t.rsp = s.cfg.errMarker)

/-- The frame of a command that uses the bus (R71, R120, "State written"): with `READY = 1` it leaves `CFG`, `CMDREG`, `READY`,
the directions of all pins, the host's moves and reads, and, in `PERIPH` mode, `sck` and `BITCNT`, as they were, and uses
up exactly 32 levels of the line. -/
def Obligations.BusCommandFrame : Prop :=
  ∀ (i : Instr) (s : State), i ∈ [Instr.acq, .faultF, .idokF, .tctF, .cjtF] → s.ready = true →
    ∃ t, exec i s = .next t ∧ t.cfg = s.cfg ∧ t.cmdreg = s.cmdreg ∧ t.ready = true ∧
      t.cs.dir = s.cs.dir ∧ t.sck.dir = s.sck.dir ∧ t.soDir = s.soDir ∧
      (s.cfg.mode = .periph → t.sck = s.sck ∧ t.bitcnt = s.bitcnt) ∧
      t.env.host = s.env.host ∧ t.env.reads = s.env.reads ∧
      t.env.levels = (s.env.popLevels 32).levels ∧ t.env.freeLevels = (s.env.popLevels 32).freeLevels ∧
      t.env.levels = s.env.levels.drop 32 ∧ t.env.freeLevels = s.env.freeLevels + (32 - s.env.levels.length)

/-- Clean entry (10_state.md R22; that commands keep it is marked as derived there): a command that starts from an idle, ready
block with its lines at their idle levels ends in such a state, whatever it answers (60_exceptions.md R137). -/
def Obligations.CleanEntryIsKept : Prop :=
  ∀ (i : Instr) (s : State), CleanEntry s → ∃ t, exec i s = .next t ∧ CleanEntry t ∧ t.busy = false ∧ t.rspValid = true

/-- The invariant holds after reset, whatever the strapping within the constraints of 00_scope.md R5, and at the model's own
`State.reset`, whose strapping is the model's choice (log entry 6). -/
def Obligations.ResetMeetsTheInvariant : Prop :=
  (∀ (c : Cfg) (e : Env), c.WellFormed → RunInv (State.resetWith c e)) ∧ RunInv State.reset

/-- Every step keeps the invariant, from every state that meets it, in the middle of a command too: pins by phase (R14, R22),
`BUSY` and `PHASE` (R19), `BITCNT` (R15), `RSP` as the last response (R17), undriven pins before `INIT` (R24, R167), no
`READY` without a power-up wait (R70, R152). -/
def Obligations.EveryStepKeepsTheInvariant : Prop :=
  ∀ s t : State, RunInv s → step s = .next t → RunInv t

/-- The configuration is fixed for the instance's lifetime (00_scope.md R4, 10_state.md R21): no step changes it, reset
included. -/
def Obligations.ConfigurationIsConstant : Prop :=
  ∀ s t : State, step s = .next t → t.cfg = s.cfg

/-- `READY` (10_state.md R19): no step but reset clears it, and none sets it but the end of an `INIT`, run as one step or
reached in `PWRUP` after the wait. -/
def Obligations.ReadyIsSetByInitClearedByReset : Prop :=
  ∀ s t : State, step s = .next t →
    (s.ready = true → t.ready = false → ∃ rest, s.env.host = .reset :: rest) ∧
    (s.ready = false → t.ready = true →
      (∃ w rest, s.env.host = .command w :: rest ∧ s.busy = false ∧ decode w = .ok .init) ∨
      (s.busy = true ∧ s.phase = .pwrup ∧ s.cfg.tPowerup ≤ s.timer))

/-- R34: a command word that an idle block takes ends in exactly one response, the last event of its trace, with `RSP`,
`RSP_VALID`, `BUSY` and `PHASE` as `respond` leaves them; and `RSP` holds until the next `respond`: a step that is no reset
only appends to the trace, and one that appends no response does not change `RSP`. -/
def Obligations.OneResponsePerCommand : Prop :=
  (∀ (s : State) (w : CmdWord) (rest : List HostMove), s.busy = false → s.env.host = .command w :: rest →
    ∃ t evs st v, step s = .next t ∧ t.trace = s.trace ++ evs ++ [.resp st v] ∧
      (∀ e ∈ evs, isResponse e = false) ∧ t.rsp = statusCode st ++ v ∧ t.rspValid = true ∧ t.busy = false ∧
      t.phase = .idle) ∧
  (∀ s t : State, step s = .next t → (∀ rest, s.env.host ≠ .reset :: rest) →
    ∃ evs, t.trace = s.trace ++ evs ∧ ((∀ e ∈ evs, isResponse e = false) → t.rsp = s.rsp))

/-- Nothing the block does raises, traps, aborts or halts (60_exceptions.md R130): from every state a step answers a next
state, and the only stop of the model is the host's read of a response that is not valid (10_state.md R17). -/
def Obligations.OnlyStopIsAnInvalidRead : Prop :=
  ∀ s : State,
    (∃ t, step s = .next t) ∨
    (step s = .fault .responseNotValid ∧ s.rspValid = false ∧ ∃ rest, s.env.host = .readResponse :: rest)

/-- The end of a run (70_reset_and_hazards.md R167): after a command, `PHASE = IDLE`, `BUSY = 0`, `RSP_VALID = 1`; with
`READY = 1` the lines are at their idle levels, with `READY = 0` both pins are still undriven. -/
def Obligations.EndOfRun : Prop :=
  ∀ (s : State) (w : CmdWord) (rest : List HostMove), RunInv s → s.busy = false → s.env.host = .command w :: rest →
    ∃ t, step s = .next t ∧ t.phase = .idle ∧ t.busy = false ∧ t.rspValid = true ∧
      (t.ready = true → t.cs.line = some .H ∧ (t.cfg.mode = .bitbang → t.sck.line = some .L)) ∧
      (t.ready = false → t.cs.line = none ∧ t.sck.line = none)

/-- R11: no command's response or trace depends on any state left by an earlier command, except through `READY` and the
configuration. Two states that agree on those two and have the same environment, but differ in every register, pin and
past trace, give the same response and append the same events. -/
def Obligations.NothingIsKeptBetweenCommands : Prop :=
  ∀ (i : Instr) (s u : State), s.ready = u.ready → s.cfg = u.cfg → s.env = u.env →
    ∃ s' u' evs, exec i s = .next s' ∧ exec i u = .next u' ∧ s'.rsp = u'.rsp ∧
      s'.trace = s.trace ++ evs ∧ u'.trace = u.trace ++ evs

/-- In `PERIPH` mode the block drives `cs` alone (20_memory.md R44, 10_state.md R20): no step but reset changes `sck` or the
direction of `so`, and none appends an event of the other transport. -/
def Obligations.PeriphLeavesClockAndDataAlone : Prop :=
  ∀ s t : State, s.cfg.mode = .periph → step s = .next t → (∀ rest, s.env.host ≠ .reset :: rest) →
    t.sck = s.sck ∧ t.soDir = s.soDir ∧ ∃ evs, t.trace = s.trace ++ evs ∧ ∀ e ∈ evs, isBitbangOnly e = false

/-- R65: `READALL` decodes one sample four times. With `READY = 1` it is one transaction and five responses, all of the frame
that the transaction returned; with `READY = 0` it stops after the `NOT_READY` of its `ACQ`. -/
def Obligations.ReadAllDecodesOneSample : Prop :=
  ∀ s : State,
    (s.ready = true → ∃ t evs, readAll s = .next t ∧ TransactionEvents s.cfg s.env.frameAhead evs ∧
      t.trace = s.trace ++ evs ++
        [.resp .ok s.env.frameAhead,
         .resp (faultResponse s.env.frameAhead).status (faultResponse s.env.frameAhead).value,
         .resp (idokResponse s.env.frameAhead).status (idokResponse s.env.frameAhead).value,
         .resp (tctResponse s.cfg s.env.frameAhead).status (tctResponse s.cfg s.env.frameAhead).value,
         .resp (cjtResponse s.cfg s.env.frameAhead).status (cjtResponse s.cfg s.env.frameAhead).value]) ∧
    (s.ready = false → ∃ t, readAll s = .next t ∧ t.trace = s.trace ++ [.resp .notReady 0#32] ∧
      t.rsp = 2#2 ++ 0#32)

/-- What a genuine device's frame gives (20_memory.md R38, as premises; 41_frame_decoder.md R101 to R104): with `GENUINE` the
cold junction is always read and only a fault refuses the thermocouple; with `FAULT_CONSISTENT` the answer `Ok` means that
all four fault bits are zero; with `ONE_FAULT` the answer `ShortToSupply` means that `D1` and `D0` are not both set. -/
def Obligations.GenuineDeviceAnswers : Prop :=
  ∀ (f : Frame) (s : State), ∃ a b c d : State,
    exec (.fault f) s = .next a ∧ exec (.idok f) s = .next b ∧ exec (.tct f) s = .next c ∧ exec (.cjt f) s = .next d ∧
    (Genuine f → rspValue b.rsp = 1#32 ∧ rspStatus d.rsp = .ok ∧
      (rspStatus c.rsp = .errmark ↔ f.getLsbD 16 = true)) ∧
    (FaultConsistent f → (rspValue a.rsp = 0#32 ↔
      f.getLsbD 16 = false ∧ f.getLsbD 2 = false ∧ f.getLsbD 1 = false ∧ f.getLsbD 0 = false)) ∧
    (OneFault f → rspValue a.rsp = 1#32 → f.getLsbD 1 = false ∨ f.getLsbD 0 = false)

/-! ### Phase by phase -/

/-- `PHASE` only moves forward through the order of 40_transaction_engine.md R72 (10_state.md R14): one move of a busy block
leaves it where it is or takes it to its successor, and never back or past one. -/
def Obligations.PhaseWalksForward : Prop :=
  ∀ s : State, s.busy = true → (tick s).phase = s.phase ∨ PhaseSuccessor s.phase (tick s).phase

/-- One atomic step and the phase-by-phase walk agree (40_transaction_engine.md, section 5, the whole trace: "must agree on
the trace and on the value"). From every idle state that meets the invariant and for every command word, reserved ones too,
the walk from the accepted word ends, after at most 137 moves, in exactly the state that the one step gives: trace, value
and every register. R84 asks for the trace and the value; that every other register agrees too, and that the longest walk
takes 137 moves, come from the model's own granularity and timer (log entries 1 and 20). -/
def Obligations.PhaseByPhaseAgrees : Prop :=
  ∀ (s : State) (w : CmdWord), RunInv s → s.busy = false →
    ∃ t, runCommand w s = .next t ∧ ticks 137 (accept w s) = t

/-- A transaction always ends (40_transaction_engine.md R83): from every state of a run, in the middle of a command too, and
whatever the data line answers, the block has answered after at most 137 moves of the sequencer. R83 says that it ends; the
number of moves is the model's own granularity (log entries 1 and 20). -/
def Obligations.EveryCommandEnds : Prop :=
  ∀ s : State, RunInv s → (ticks 137 s).busy = false ∧ (ticks 137 s).phase = .idle ∧
    (s.busy = true → (ticks 137 s).rspValid = true)
end

