-- ==== Sys2Proof/Laws/State.lean ====
section
/-! SUPPORT. What each named operation does to each field of the state, one lemma a field, so that no later proof unfolds
a record update. -/

namespace Sys2Proof.Machine

variable (s : State)

@[simp] theorem log_cmdreg (ev : Event) : (log ev s).cmdreg = s.cmdreg := rfl
@[simp] theorem log_shreg (ev : Event) : (log ev s).shreg = s.shreg := rfl
@[simp] theorem log_phase (ev : Event) : (log ev s).phase = s.phase := rfl
@[simp] theorem log_bitcnt (ev : Event) : (log ev s).bitcnt = s.bitcnt := rfl
@[simp] theorem log_timer (ev : Event) : (log ev s).timer = s.timer := rfl
@[simp] theorem log_rsp (ev : Event) : (log ev s).rsp = s.rsp := rfl
@[simp] theorem log_rspValid (ev : Event) : (log ev s).rspValid = s.rspValid := rfl
@[simp] theorem log_ready (ev : Event) : (log ev s).ready = s.ready := rfl
@[simp] theorem log_busy (ev : Event) : (log ev s).busy = s.busy := rfl
@[simp] theorem log_cs (ev : Event) : (log ev s).cs = s.cs := rfl
@[simp] theorem log_sck (ev : Event) : (log ev s).sck = s.sck := rfl
@[simp] theorem log_soDir (ev : Event) : (log ev s).soDir = s.soDir := rfl
@[simp] theorem log_cfg (ev : Event) : (log ev s).cfg = s.cfg := rfl
@[simp] theorem log_trace (ev : Event) : (log ev s).trace = s.trace ++ [ev] := rfl
@[simp] theorem log_env (ev : Event) : (log ev s).env = s.env := rfl

@[simp] theorem setPhase_cmdreg (p : Phase) : (setPhase p s).cmdreg = s.cmdreg := rfl
@[simp] theorem setPhase_shreg (p : Phase) : (setPhase p s).shreg = s.shreg := rfl
@[simp] theorem setPhase_phase (p : Phase) : (setPhase p s).phase = p := rfl
@[simp] theorem setPhase_bitcnt (p : Phase) : (setPhase p s).bitcnt = s.bitcnt := rfl
@[simp] theorem setPhase_timer (p : Phase) : (setPhase p s).timer = s.timer := rfl
@[simp] theorem setPhase_rsp (p : Phase) : (setPhase p s).rsp = s.rsp := rfl
@[simp] theorem setPhase_rspValid (p : Phase) : (setPhase p s).rspValid = s.rspValid := rfl
@[simp] theorem setPhase_ready (p : Phase) : (setPhase p s).ready = s.ready := rfl
@[simp] theorem setPhase_busy (p : Phase) : (setPhase p s).busy = s.busy := rfl
@[simp] theorem setPhase_cs (p : Phase) : (setPhase p s).cs = s.cs := rfl
@[simp] theorem setPhase_sck (p : Phase) : (setPhase p s).sck = s.sck := rfl
@[simp] theorem setPhase_soDir (p : Phase) : (setPhase p s).soDir = s.soDir := rfl
@[simp] theorem setPhase_cfg (p : Phase) : (setPhase p s).cfg = s.cfg := rfl
@[simp] theorem setPhase_trace (p : Phase) : (setPhase p s).trace = s.trace := rfl
@[simp] theorem setPhase_env (p : Phase) : (setPhase p s).env = s.env := rfl

@[simp] theorem pinDir_cs_cmdreg (d : Dir) : (pinDir .cs d s).cmdreg = s.cmdreg := rfl
@[simp] theorem pinDir_cs_shreg (d : Dir) : (pinDir .cs d s).shreg = s.shreg := rfl
@[simp] theorem pinDir_cs_phase (d : Dir) : (pinDir .cs d s).phase = s.phase := rfl
@[simp] theorem pinDir_cs_bitcnt (d : Dir) : (pinDir .cs d s).bitcnt = s.bitcnt := rfl
@[simp] theorem pinDir_cs_timer (d : Dir) : (pinDir .cs d s).timer = s.timer := rfl
@[simp] theorem pinDir_cs_rsp (d : Dir) : (pinDir .cs d s).rsp = s.rsp := rfl
@[simp] theorem pinDir_cs_rspValid (d : Dir) : (pinDir .cs d s).rspValid = s.rspValid := rfl
@[simp] theorem pinDir_cs_ready (d : Dir) : (pinDir .cs d s).ready = s.ready := rfl
@[simp] theorem pinDir_cs_busy (d : Dir) : (pinDir .cs d s).busy = s.busy := rfl
@[simp] theorem pinDir_cs_cs (d : Dir) : (pinDir .cs d s).cs = { s.cs with dir := d } := rfl
@[simp] theorem pinDir_cs_sck (d : Dir) : (pinDir .cs d s).sck = s.sck := rfl
@[simp] theorem pinDir_cs_soDir (d : Dir) : (pinDir .cs d s).soDir = s.soDir := rfl
@[simp] theorem pinDir_cs_cfg (d : Dir) : (pinDir .cs d s).cfg = s.cfg := rfl
@[simp] theorem pinDir_cs_trace (d : Dir) : (pinDir .cs d s).trace = s.trace ++ [.dir .cs d] := rfl
@[simp] theorem pinDir_cs_env (d : Dir) : (pinDir .cs d s).env = s.env := rfl

@[simp] theorem pinDir_sck_cmdreg (d : Dir) : (pinDir .sck d s).cmdreg = s.cmdreg := rfl
@[simp] theorem pinDir_sck_shreg (d : Dir) : (pinDir .sck d s).shreg = s.shreg := rfl
@[simp] theorem pinDir_sck_phase (d : Dir) : (pinDir .sck d s).phase = s.phase := rfl
@[simp] theorem pinDir_sck_bitcnt (d : Dir) : (pinDir .sck d s).bitcnt = s.bitcnt := rfl
@[simp] theorem pinDir_sck_timer (d : Dir) : (pinDir .sck d s).timer = s.timer := rfl
@[simp] theorem pinDir_sck_rsp (d : Dir) : (pinDir .sck d s).rsp = s.rsp := rfl
@[simp] theorem pinDir_sck_rspValid (d : Dir) : (pinDir .sck d s).rspValid = s.rspValid := rfl
@[simp] theorem pinDir_sck_ready (d : Dir) : (pinDir .sck d s).ready = s.ready := rfl
@[simp] theorem pinDir_sck_busy (d : Dir) : (pinDir .sck d s).busy = s.busy := rfl
@[simp] theorem pinDir_sck_cs (d : Dir) : (pinDir .sck d s).cs = s.cs := rfl
@[simp] theorem pinDir_sck_sck (d : Dir) : (pinDir .sck d s).sck = { s.sck with dir := d } := rfl
@[simp] theorem pinDir_sck_soDir (d : Dir) : (pinDir .sck d s).soDir = s.soDir := rfl
@[simp] theorem pinDir_sck_cfg (d : Dir) : (pinDir .sck d s).cfg = s.cfg := rfl
@[simp] theorem pinDir_sck_trace (d : Dir) : (pinDir .sck d s).trace = s.trace ++ [.dir .sck d] := rfl
@[simp] theorem pinDir_sck_env (d : Dir) : (pinDir .sck d s).env = s.env := rfl

@[simp] theorem pinDir_so_cmdreg (d : Dir) : (pinDir .so d s).cmdreg = s.cmdreg := rfl
@[simp] theorem pinDir_so_shreg (d : Dir) : (pinDir .so d s).shreg = s.shreg := rfl
@[simp] theorem pinDir_so_phase (d : Dir) : (pinDir .so d s).phase = s.phase := rfl
@[simp] theorem pinDir_so_bitcnt (d : Dir) : (pinDir .so d s).bitcnt = s.bitcnt := rfl
@[simp] theorem pinDir_so_timer (d : Dir) : (pinDir .so d s).timer = s.timer := rfl
@[simp] theorem pinDir_so_rsp (d : Dir) : (pinDir .so d s).rsp = s.rsp := rfl
@[simp] theorem pinDir_so_rspValid (d : Dir) : (pinDir .so d s).rspValid = s.rspValid := rfl
@[simp] theorem pinDir_so_ready (d : Dir) : (pinDir .so d s).ready = s.ready := rfl
@[simp] theorem pinDir_so_busy (d : Dir) : (pinDir .so d s).busy = s.busy := rfl
@[simp] theorem pinDir_so_cs (d : Dir) : (pinDir .so d s).cs = s.cs := rfl
@[simp] theorem pinDir_so_sck (d : Dir) : (pinDir .so d s).sck = s.sck := rfl
@[simp] theorem pinDir_so_soDir (d : Dir) : (pinDir .so d s).soDir = d := rfl
@[simp] theorem pinDir_so_cfg (d : Dir) : (pinDir .so d s).cfg = s.cfg := rfl
@[simp] theorem pinDir_so_trace (d : Dir) : (pinDir .so d s).trace = s.trace ++ [.dir .so d] := rfl
@[simp] theorem pinDir_so_env (d : Dir) : (pinDir .so d s).env = s.env := rfl

@[simp] theorem pinWrite_cs_cmdreg (l : Level) : (pinWrite .cs l s).cmdreg = s.cmdreg := rfl
@[simp] theorem pinWrite_cs_shreg (l : Level) : (pinWrite .cs l s).shreg = s.shreg := rfl
@[simp] theorem pinWrite_cs_phase (l : Level) : (pinWrite .cs l s).phase = s.phase := rfl
@[simp] theorem pinWrite_cs_bitcnt (l : Level) : (pinWrite .cs l s).bitcnt = s.bitcnt := rfl
@[simp] theorem pinWrite_cs_timer (l : Level) : (pinWrite .cs l s).timer = s.timer := rfl
@[simp] theorem pinWrite_cs_rsp (l : Level) : (pinWrite .cs l s).rsp = s.rsp := rfl
@[simp] theorem pinWrite_cs_rspValid (l : Level) : (pinWrite .cs l s).rspValid = s.rspValid := rfl
@[simp] theorem pinWrite_cs_ready (l : Level) : (pinWrite .cs l s).ready = s.ready := rfl
@[simp] theorem pinWrite_cs_busy (l : Level) : (pinWrite .cs l s).busy = s.busy := rfl
@[simp] theorem pinWrite_cs_cs (l : Level) : (pinWrite .cs l s).cs = { s.cs with latch := l } := rfl
@[simp] theorem pinWrite_cs_sck (l : Level) : (pinWrite .cs l s).sck = s.sck := rfl
@[simp] theorem pinWrite_cs_soDir (l : Level) : (pinWrite .cs l s).soDir = s.soDir := rfl
@[simp] theorem pinWrite_cs_cfg (l : Level) : (pinWrite .cs l s).cfg = s.cfg := rfl
@[simp] theorem pinWrite_cs_trace (l : Level) : (pinWrite .cs l s).trace = s.trace ++ [.pin .cs l] := rfl
@[simp] theorem pinWrite_cs_env (l : Level) : (pinWrite .cs l s).env = s.env := rfl

@[simp] theorem pinWrite_sck_cmdreg (l : Level) : (pinWrite .sck l s).cmdreg = s.cmdreg := rfl
@[simp] theorem pinWrite_sck_shreg (l : Level) : (pinWrite .sck l s).shreg = s.shreg := rfl
@[simp] theorem pinWrite_sck_phase (l : Level) : (pinWrite .sck l s).phase = s.phase := rfl
@[simp] theorem pinWrite_sck_bitcnt (l : Level) : (pinWrite .sck l s).bitcnt = s.bitcnt := rfl
@[simp] theorem pinWrite_sck_timer (l : Level) : (pinWrite .sck l s).timer = s.timer := rfl
@[simp] theorem pinWrite_sck_rsp (l : Level) : (pinWrite .sck l s).rsp = s.rsp := rfl
@[simp] theorem pinWrite_sck_rspValid (l : Level) : (pinWrite .sck l s).rspValid = s.rspValid := rfl
@[simp] theorem pinWrite_sck_ready (l : Level) : (pinWrite .sck l s).ready = s.ready := rfl
@[simp] theorem pinWrite_sck_busy (l : Level) : (pinWrite .sck l s).busy = s.busy := rfl
@[simp] theorem pinWrite_sck_cs (l : Level) : (pinWrite .sck l s).cs = s.cs := rfl
@[simp] theorem pinWrite_sck_sck (l : Level) : (pinWrite .sck l s).sck = { s.sck with latch := l } := rfl
@[simp] theorem pinWrite_sck_soDir (l : Level) : (pinWrite .sck l s).soDir = s.soDir := rfl
@[simp] theorem pinWrite_sck_cfg (l : Level) : (pinWrite .sck l s).cfg = s.cfg := rfl
@[simp] theorem pinWrite_sck_trace (l : Level) : (pinWrite .sck l s).trace = s.trace ++ [.pin .sck l] := rfl
@[simp] theorem pinWrite_sck_env (l : Level) : (pinWrite .sck l s).env = s.env := rfl

@[simp] theorem wait_cmdreg (n : Nat) : (wait n s).cmdreg = s.cmdreg := rfl
@[simp] theorem wait_shreg (n : Nat) : (wait n s).shreg = s.shreg := rfl
@[simp] theorem wait_phase (n : Nat) : (wait n s).phase = s.phase := rfl
@[simp] theorem wait_bitcnt (n : Nat) : (wait n s).bitcnt = s.bitcnt := rfl
@[simp] theorem wait_timer (n : Nat) : (wait n s).timer = n + s.env.nextDelay := rfl
@[simp] theorem wait_rsp (n : Nat) : (wait n s).rsp = s.rsp := rfl
@[simp] theorem wait_rspValid (n : Nat) : (wait n s).rspValid = s.rspValid := rfl
@[simp] theorem wait_ready (n : Nat) : (wait n s).ready = s.ready := rfl
@[simp] theorem wait_busy (n : Nat) : (wait n s).busy = s.busy := rfl
@[simp] theorem wait_cs (n : Nat) : (wait n s).cs = s.cs := rfl
@[simp] theorem wait_sck (n : Nat) : (wait n s).sck = s.sck := rfl
@[simp] theorem wait_soDir (n : Nat) : (wait n s).soDir = s.soDir := rfl
@[simp] theorem wait_cfg (n : Nat) : (wait n s).cfg = s.cfg := rfl
@[simp] theorem wait_trace (n : Nat) : (wait n s).trace = s.trace ++ [.wait (n + s.env.nextDelay)] := rfl
@[simp] theorem wait_env (n : Nat) : (wait n s).env = s.env.popDelay := rfl

@[simp] theorem startTimer_cmdreg : (startTimer s).cmdreg = s.cmdreg := rfl
@[simp] theorem startTimer_shreg : (startTimer s).shreg = s.shreg := rfl
@[simp] theorem startTimer_phase : (startTimer s).phase = s.phase := rfl
@[simp] theorem startTimer_bitcnt : (startTimer s).bitcnt = s.bitcnt := rfl
@[simp] theorem startTimer_timer : (startTimer s).timer = 0 := rfl
@[simp] theorem startTimer_rsp : (startTimer s).rsp = s.rsp := rfl
@[simp] theorem startTimer_rspValid : (startTimer s).rspValid = s.rspValid := rfl
@[simp] theorem startTimer_ready : (startTimer s).ready = s.ready := rfl
@[simp] theorem startTimer_busy : (startTimer s).busy = s.busy := rfl
@[simp] theorem startTimer_cs : (startTimer s).cs = s.cs := rfl
@[simp] theorem startTimer_sck : (startTimer s).sck = s.sck := rfl
@[simp] theorem startTimer_soDir : (startTimer s).soDir = s.soDir := rfl
@[simp] theorem startTimer_cfg : (startTimer s).cfg = s.cfg := rfl
@[simp] theorem startTimer_trace : (startTimer s).trace = s.trace := rfl
@[simp] theorem startTimer_env : (startTimer s).env = s.env := rfl

@[simp] theorem clearShift_cmdreg : (clearShift s).cmdreg = s.cmdreg := rfl
@[simp] theorem clearShift_shreg : (clearShift s).shreg = 0#32 := rfl
@[simp] theorem clearShift_phase : (clearShift s).phase = s.phase := rfl
@[simp] theorem clearShift_bitcnt : (clearShift s).bitcnt = 0#6 := rfl
@[simp] theorem clearShift_timer : (clearShift s).timer = s.timer := rfl
@[simp] theorem clearShift_rsp : (clearShift s).rsp = s.rsp := rfl
@[simp] theorem clearShift_rspValid : (clearShift s).rspValid = s.rspValid := rfl
@[simp] theorem clearShift_ready : (clearShift s).ready = s.ready := rfl
@[simp] theorem clearShift_busy : (clearShift s).busy = s.busy := rfl
@[simp] theorem clearShift_cs : (clearShift s).cs = s.cs := rfl
@[simp] theorem clearShift_sck : (clearShift s).sck = s.sck := rfl
@[simp] theorem clearShift_soDir : (clearShift s).soDir = s.soDir := rfl
@[simp] theorem clearShift_cfg : (clearShift s).cfg = s.cfg := rfl
@[simp] theorem clearShift_trace : (clearShift s).trace = s.trace := rfl
@[simp] theorem clearShift_env : (clearShift s).env = s.env := rfl

@[simp] theorem takeSample_cmdreg : (takeSample s).cmdreg = s.cmdreg := rfl
@[simp] theorem takeSample_shreg : (takeSample s).shreg = shiftIn s.shreg s.env.nextLevel := rfl
@[simp] theorem takeSample_phase : (takeSample s).phase = s.phase := rfl
@[simp] theorem takeSample_bitcnt : (takeSample s).bitcnt = s.bitcnt + 1#6 := rfl
@[simp] theorem takeSample_timer : (takeSample s).timer = s.timer := rfl
@[simp] theorem takeSample_rsp : (takeSample s).rsp = s.rsp := rfl
@[simp] theorem takeSample_rspValid : (takeSample s).rspValid = s.rspValid := rfl
@[simp] theorem takeSample_ready : (takeSample s).ready = s.ready := rfl
@[simp] theorem takeSample_busy : (takeSample s).busy = s.busy := rfl
@[simp] theorem takeSample_cs : (takeSample s).cs = s.cs := rfl
@[simp] theorem takeSample_sck : (takeSample s).sck = s.sck := rfl
@[simp] theorem takeSample_soDir : (takeSample s).soDir = s.soDir := rfl
@[simp] theorem takeSample_cfg : (takeSample s).cfg = s.cfg := rfl
@[simp] theorem takeSample_trace : (takeSample s).trace = s.trace ++ [.sample s.bitcnt.toNat s.env.nextLevel] := rfl
@[simp] theorem takeSample_env : (takeSample s).env = s.env.popLevel := rfl

@[simp] theorem spiTransfer32_cmdreg : (spiTransfer32 s).cmdreg = s.cmdreg := rfl
@[simp] theorem spiTransfer32_shreg : (spiTransfer32 s).shreg = s.env.frameAhead := rfl
@[simp] theorem spiTransfer32_phase : (spiTransfer32 s).phase = s.phase := rfl
@[simp] theorem spiTransfer32_bitcnt : (spiTransfer32 s).bitcnt = s.bitcnt := rfl
@[simp] theorem spiTransfer32_timer : (spiTransfer32 s).timer = s.timer := rfl
@[simp] theorem spiTransfer32_rsp : (spiTransfer32 s).rsp = s.rsp := rfl
@[simp] theorem spiTransfer32_rspValid : (spiTransfer32 s).rspValid = s.rspValid := rfl
@[simp] theorem spiTransfer32_ready : (spiTransfer32 s).ready = s.ready := rfl
@[simp] theorem spiTransfer32_busy : (spiTransfer32 s).busy = s.busy := rfl
@[simp] theorem spiTransfer32_cs : (spiTransfer32 s).cs = s.cs := rfl
@[simp] theorem spiTransfer32_sck : (spiTransfer32 s).sck = s.sck := rfl
@[simp] theorem spiTransfer32_soDir : (spiTransfer32 s).soDir = s.soDir := rfl
@[simp] theorem spiTransfer32_cfg : (spiTransfer32 s).cfg = s.cfg := rfl
@[simp] theorem spiTransfer32_trace : (spiTransfer32 s).trace = s.trace ++ [.spiTransfer 32 s.env.frameAhead] := rfl
@[simp] theorem spiTransfer32_env : (spiTransfer32 s).env = s.env.popLevels 32 := rfl

@[simp] theorem setReady_cmdreg : (setReady s).cmdreg = s.cmdreg := rfl
@[simp] theorem setReady_shreg : (setReady s).shreg = s.shreg := rfl
@[simp] theorem setReady_phase : (setReady s).phase = s.phase := rfl
@[simp] theorem setReady_bitcnt : (setReady s).bitcnt = s.bitcnt := rfl
@[simp] theorem setReady_timer : (setReady s).timer = s.timer := rfl
@[simp] theorem setReady_rsp : (setReady s).rsp = s.rsp := rfl
@[simp] theorem setReady_rspValid : (setReady s).rspValid = s.rspValid := rfl
@[simp] theorem setReady_ready : (setReady s).ready = true := rfl
@[simp] theorem setReady_busy : (setReady s).busy = s.busy := rfl
@[simp] theorem setReady_cs : (setReady s).cs = s.cs := rfl
@[simp] theorem setReady_sck : (setReady s).sck = s.sck := rfl
@[simp] theorem setReady_soDir : (setReady s).soDir = s.soDir := rfl
@[simp] theorem setReady_cfg : (setReady s).cfg = s.cfg := rfl
@[simp] theorem setReady_trace : (setReady s).trace = s.trace := rfl
@[simp] theorem setReady_env : (setReady s).env = s.env := rfl

@[simp] theorem respond_cmdreg (r : Response) : (respond r s).cmdreg = s.cmdreg := rfl
@[simp] theorem respond_shreg (r : Response) : (respond r s).shreg = s.shreg := rfl
@[simp] theorem respond_phase (r : Response) : (respond r s).phase = .idle := rfl
@[simp] theorem respond_bitcnt (r : Response) : (respond r s).bitcnt = s.bitcnt := rfl
@[simp] theorem respond_timer (r : Response) : (respond r s).timer = s.timer := rfl
@[simp] theorem respond_rsp (r : Response) : (respond r s).rsp = packResponse r := rfl
@[simp] theorem respond_rspValid (r : Response) : (respond r s).rspValid = true := rfl
@[simp] theorem respond_ready (r : Response) : (respond r s).ready = s.ready := rfl
@[simp] theorem respond_busy (r : Response) : (respond r s).busy = false := rfl
@[simp] theorem respond_cs (r : Response) : (respond r s).cs = s.cs := rfl
@[simp] theorem respond_sck (r : Response) : (respond r s).sck = s.sck := rfl
@[simp] theorem respond_soDir (r : Response) : (respond r s).soDir = s.soDir := rfl
@[simp] theorem respond_cfg (r : Response) : (respond r s).cfg = s.cfg := rfl
@[simp] theorem respond_trace (r : Response) : (respond r s).trace = s.trace ++ [.resp r.status r.value] := rfl
@[simp] theorem respond_env (r : Response) : (respond r s).env = s.env := rfl

@[simp] theorem accept_cmdreg (w : CmdWord) : (accept w s).cmdreg = w := rfl
@[simp] theorem accept_shreg (w : CmdWord) : (accept w s).shreg = s.shreg := rfl
@[simp] theorem accept_phase (w : CmdWord) : (accept w s).phase = s.phase := rfl
@[simp] theorem accept_bitcnt (w : CmdWord) : (accept w s).bitcnt = s.bitcnt := rfl
@[simp] theorem accept_timer (w : CmdWord) : (accept w s).timer = s.timer := rfl
@[simp] theorem accept_rsp (w : CmdWord) : (accept w s).rsp = s.rsp := rfl
@[simp] theorem accept_rspValid (w : CmdWord) : (accept w s).rspValid = false := rfl
@[simp] theorem accept_ready (w : CmdWord) : (accept w s).ready = s.ready := rfl
@[simp] theorem accept_busy (w : CmdWord) : (accept w s).busy = true := rfl
@[simp] theorem accept_cs (w : CmdWord) : (accept w s).cs = s.cs := rfl
@[simp] theorem accept_sck (w : CmdWord) : (accept w s).sck = s.sck := rfl
@[simp] theorem accept_soDir (w : CmdWord) : (accept w s).soDir = s.soDir := rfl
@[simp] theorem accept_cfg (w : CmdWord) : (accept w s).cfg = s.cfg := rfl
@[simp] theorem accept_trace (w : CmdWord) : (accept w s).trace = s.trace := rfl
@[simp] theorem accept_env (w : CmdWord) : (accept w s).env = s.env := rfl

@[simp] theorem withHost_cmdreg (rest : List HostMove) : (withHost rest s).cmdreg = s.cmdreg := rfl
@[simp] theorem withHost_shreg (rest : List HostMove) : (withHost rest s).shreg = s.shreg := rfl
@[simp] theorem withHost_phase (rest : List HostMove) : (withHost rest s).phase = s.phase := rfl
@[simp] theorem withHost_bitcnt (rest : List HostMove) : (withHost rest s).bitcnt = s.bitcnt := rfl
@[simp] theorem withHost_timer (rest : List HostMove) : (withHost rest s).timer = s.timer := rfl
@[simp] theorem withHost_rsp (rest : List HostMove) : (withHost rest s).rsp = s.rsp := rfl
@[simp] theorem withHost_rspValid (rest : List HostMove) : (withHost rest s).rspValid = s.rspValid := rfl
@[simp] theorem withHost_ready (rest : List HostMove) : (withHost rest s).ready = s.ready := rfl
@[simp] theorem withHost_busy (rest : List HostMove) : (withHost rest s).busy = s.busy := rfl
@[simp] theorem withHost_cs (rest : List HostMove) : (withHost rest s).cs = s.cs := rfl
@[simp] theorem withHost_sck (rest : List HostMove) : (withHost rest s).sck = s.sck := rfl
@[simp] theorem withHost_soDir (rest : List HostMove) : (withHost rest s).soDir = s.soDir := rfl
@[simp] theorem withHost_cfg (rest : List HostMove) : (withHost rest s).cfg = s.cfg := rfl
@[simp] theorem withHost_trace (rest : List HostMove) : (withHost rest s).trace = s.trace := rfl
@[simp] theorem withHost_env (rest : List HostMove) : (withHost rest s).env = { s.env with host := rest } := rfl

@[simp] theorem assertReset_cmdreg : (assertReset s).cmdreg = 0#36 := rfl
@[simp] theorem assertReset_shreg : (assertReset s).shreg = 0#32 := rfl
@[simp] theorem assertReset_phase : (assertReset s).phase = .idle := rfl
@[simp] theorem assertReset_bitcnt : (assertReset s).bitcnt = 0#6 := rfl
@[simp] theorem assertReset_timer : (assertReset s).timer = 0 := rfl
@[simp] theorem assertReset_rsp : (assertReset s).rsp = 0#34 := rfl
@[simp] theorem assertReset_rspValid : (assertReset s).rspValid = false := rfl
@[simp] theorem assertReset_ready : (assertReset s).ready = false := rfl
@[simp] theorem assertReset_busy : (assertReset s).busy = false := rfl
@[simp] theorem assertReset_cs : (assertReset s).cs = { dir := .input, latch := .H } := rfl
@[simp] theorem assertReset_sck : (assertReset s).sck = { dir := .input, latch := .L } := rfl
@[simp] theorem assertReset_soDir : (assertReset s).soDir = .input := rfl
@[simp] theorem assertReset_cfg : (assertReset s).cfg = s.cfg := rfl
@[simp] theorem assertReset_trace : (assertReset s).trace = [] := rfl
@[simp] theorem assertReset_env : (assertReset s).env = s.env := rfl

@[simp] theorem Env.popLevel_host (e : Env) : e.popLevel.host = e.host := rfl
@[simp] theorem Env.popLevel_levels (e : Env) : e.popLevel.levels = e.levels.tail := rfl
@[simp] theorem Env.popLevel_delays (e : Env) : e.popLevel.delays = e.delays := rfl
@[simp] theorem Env.popLevel_freeLevels (e : Env) : e.popLevel.freeLevels = if e.levels.isEmpty then e.freeLevels + 1 else e.freeLevels := rfl
@[simp] theorem Env.popLevel_freeDelays (e : Env) : e.popLevel.freeDelays = e.freeDelays := rfl
@[simp] theorem Env.popLevel_reads (e : Env) : e.popLevel.reads = e.reads := rfl

@[simp] theorem Env.popDelay_host (e : Env) : e.popDelay.host = e.host := rfl
@[simp] theorem Env.popDelay_levels (e : Env) : e.popDelay.levels = e.levels := rfl
@[simp] theorem Env.popDelay_delays (e : Env) : e.popDelay.delays = e.delays.tail := rfl
@[simp] theorem Env.popDelay_freeLevels (e : Env) : e.popDelay.freeLevels = e.freeLevels := rfl
@[simp] theorem Env.popDelay_freeDelays (e : Env) : e.popDelay.freeDelays = if e.delays.isEmpty then e.freeDelays + 1 else e.freeDelays := rfl
@[simp] theorem Env.popDelay_reads (e : Env) : e.popDelay.reads = e.reads := rfl

end Sys2Proof.Machine
end

