-- ==== Sys2Proof/Laws/Ops.lean ====
section
/-! SUPPORT. What each shared operation does, said once: the environment's draws, the bit cells, a transaction, a command,
a step. Later proofs cite these and do not unfold the operations again. -/

namespace Sys2Proof.Machine

/-! ### The environment -/

/-- How long a wait lasts does not change what the line answers. -/
@[simp] theorem Env.nextLevel_popDelay (e : Env) : e.popDelay.nextLevel = e.nextLevel := rfl

/-- A sample does not change how long a wait lasts. -/
@[simp] theorem Env.nextDelay_popLevel (e : Env) : e.popLevel.nextDelay = e.nextDelay := rfl

@[simp] theorem Env.nextDelay_popLevel_popDelay (e : Env) : e.popLevel.popDelay.nextDelay = e.popDelay.nextDelay := rfl

@[simp] theorem Env.popLevel_popDelay (e : Env) : e.popDelay.popLevel = e.popLevel.popDelay := rfl

@[simp] theorem Env.levelsAhead_popDelay (n : Nat) (e : Env) : e.popDelay.levelsAhead n = e.levelsAhead n := by
  induction n generalizing e with
  | zero => rfl
  | succ n ih => simp [Env.levelsAhead, ih]

@[simp] theorem Env.frameAhead_popDelay (e : Env) : e.popDelay.frameAhead = e.frameAhead := by
  simp [Env.frameAhead]

theorem Env.levelsAhead_length (n : Nat) (e : Env) : (e.levelsAhead n).length = n := by
  induction n generalizing e with
  | zero => rfl
  | succ n ih => simp [Env.levelsAhead, ih]

@[simp] theorem Env.popLevels_popDelay (n : Nat) (e : Env) : e.popDelay.popLevels n = (e.popLevels n).popDelay := by
  induction n generalizing e with
  | zero => rfl
  | succ n ih => simp [Env.popLevels, ih]

/-- The environment after `n` waits. -/
def Env.popDelays : Nat → Env → Env
  | 0, e => e
  | n + 1, e => popDelays n e.popDelay

@[simp] theorem Env.popDelays_host (n : Nat) (e : Env) : (e.popDelays n).host = e.host := by
  induction n generalizing e with
  | zero => rfl
  | succ n ih => simp [Env.popDelays, ih]

@[simp] theorem Env.popDelays_reads (n : Nat) (e : Env) : (e.popDelays n).reads = e.reads := by
  induction n generalizing e with
  | zero => rfl
  | succ n ih => simp [Env.popDelays, ih]

@[simp] theorem Env.popLevels_host (n : Nat) (e : Env) : (e.popLevels n).host = e.host := by
  induction n generalizing e with
  | zero => rfl
  | succ n ih => simp [Env.popLevels, ih]

@[simp] theorem Env.popLevels_reads (n : Nat) (e : Env) : (e.popLevels n).reads = e.reads := by
  induction n generalizing e with
  | zero => rfl
  | succ n ih => simp [Env.popLevels, ih]

/-- Levels that the environment lists come before any free value. -/
theorem Env.levelsAhead_of_list (bs : List Bool) (e : Env) (rest : List Bool) (h : e.levels = bs ++ rest) :
    e.levelsAhead bs.length = bs := by
  induction bs generalizing e with
  | nil => rfl
  | cons b bs ih =>
    have hn : e.nextLevel = b := by simp [Env.nextLevel, h]
    have hp : e.popLevel.levels = bs ++ rest := by simp [h]
    simp [Env.levelsAhead, hn, ih e.popLevel hp]

/-! ### Responses -/

/-- Bits of a response word: `VALUE` below bit 32, `STATUS` from there on (30_encoding.md R57). -/
theorem packResponse_getLsbD (r : Response) (i : Nat) :
    (packResponse r).getLsbD i = if i < 32 then r.value.getLsbD i else (statusCode r.status).getLsbD (i - 32) := by
  show BitVec.getLsbD (w := 2 + 32) (statusCode r.status ++ r.value) i = _
  rw [BitVec.getLsbD_append]

@[simp] theorem rspStatus_packResponse (r : Response) : rspStatus (packResponse r) = r.status := by
  have h : (packResponse r).extractLsb' 32 2 = statusCode r.status := by
    ext i hi
    simp [packResponse_getLsbD, BitVec.getLsbD_eq_getElem hi]
  simp only [rspStatus, h]
  cases r.status <;> rfl

@[simp] theorem rspValue_packResponse (r : Response) : rspValue (packResponse r) = r.value := by
  ext i hi
  simp [rspValue, packResponse_getLsbD, hi]

/-! ### Bit cells and transactions -/

/-- What one bit cell does. -/
theorem bitCell_eq (s : State) :
    bitCell s = { s with
      shreg := shiftIn s.shreg s.env.nextLevel
      bitcnt := s.bitcnt + 1#6
      timer := s.cfg.tHalf + s.env.popDelay.nextDelay
      sck := { s.sck with latch := .L }
      trace := s.trace ++ [.pin .sck .H, .wait (s.cfg.tHalf + s.env.nextDelay), .pin .sck .L,
        .sample s.bitcnt.toNat s.env.nextLevel, .wait (s.cfg.tHalf + s.env.popDelay.nextDelay)]
      env := s.env.popDelay.popDelay.popLevel } := by
  simp [bitCell, takeSample, pinWrite, wait, List.append_assoc]

/-- The fields that bit cells do not touch, and what becomes of `SHREG`, `BITCNT` and the environment. -/
theorem bitCells_fields (n : Nat) (s : State) :
    (bitCells n s).cfg = s.cfg ∧ (bitCells n s).cs = s.cs ∧ (bitCells n s).sck.dir = s.sck.dir ∧
    (bitCells n s).soDir = s.soDir ∧ (bitCells n s).ready = s.ready ∧ (bitCells n s).busy = s.busy ∧
    (bitCells n s).rsp = s.rsp ∧ (bitCells n s).rspValid = s.rspValid ∧ (bitCells n s).phase = s.phase ∧
    (bitCells n s).cmdreg = s.cmdreg ∧ (bitCells n s).shreg = (s.env.levelsAhead n).foldl shiftIn s.shreg ∧
    (bitCells n s).bitcnt = s.bitcnt + BitVec.ofNat 6 n ∧
    (bitCells n s).env = (s.env.popLevels n).popDelays (2 * n) := by
  induction n generalizing s with
  | zero => simp [bitCells, Env.levelsAhead, Env.popLevels, Env.popDelays]
  | succ n ih =>
    obtain ⟨h1, h2, h3, h4, h5, h6, h7, h8, h9, h10, h11, h12, h13⟩ := ih (bitCell s)
    refine ⟨?_, ?_, ?_, ?_, ?_, ?_, ?_, ?_, ?_, ?_, ?_, ?_, ?_⟩
    all_goals simp only [bitCells]
    · rw [h1, bitCell_eq]
    · rw [h2, bitCell_eq]
    · rw [h3, bitCell_eq]
    · rw [h4, bitCell_eq]
    · rw [h5, bitCell_eq]
    · rw [h6, bitCell_eq]
    · rw [h7, bitCell_eq]
    · rw [h8, bitCell_eq]
    · rw [h9, bitCell_eq]
    · rw [h10, bitCell_eq]
    · rw [h11, bitCell_eq]; simp [Env.levelsAhead]
    · rw [h12, bitCell_eq]
      apply BitVec.eq_of_toNat_eq
      simp only [BitVec.toNat_add, BitVec.toNat_ofNat]
      omega
    · rw [h13, bitCell_eq]
      show ((s.env.popDelay.popDelay.popLevel).popLevels n).popDelays (2 * n) = _
      rw [show 2 * (n + 1) = (2 * n + 1) + 1 by omega]
      simp [Env.popLevels, Env.popDelays]

/-- After at least one cell `sck` is low. -/
theorem bitCells_sck (n : Nat) (s : State) : (bitCells (n + 1) s).sck = { s.sck with latch := .L } := by
  induction n generalizing s with
  | zero => simp [bitCells, bitCell_eq]
  | succ n ih =>
    have h := ih (bitCell s)
    rw [show bitCells (n + 1 + 1) s = bitCells (n + 1) (bitCell s) from rfl, h, bitCell_eq]

/-- The trace of `n` bit cells, as cells drawn one after the other. -/
theorem bitCells_trace (n : Nat) (s : State) (hb : s.bitcnt.toNat + n ≤ 32) :
    ∃ cells : List Cell, cells.length = n ∧ (∀ x ∈ cells, s.cfg.tHalf ≤ x.high ∧ s.cfg.tHalf ≤ x.low) ∧
      cells.map Cell.level = s.env.levelsAhead n ∧
      (bitCells n s).trace = s.trace ++ cellEvents s.bitcnt.toNat cells := by
  induction n generalizing s with
  | zero => exact ⟨[], rfl, by simp, rfl, by simp [bitCells, cellEvents]⟩
  | succ n ih =>
    have hc : (bitCell s).bitcnt.toNat = s.bitcnt.toNat + 1 := by
      rw [bitCell_eq]; simp only [BitVec.toNat_add, BitVec.toNat_ofNat]; omega
    obtain ⟨cells, hl, hx, hm, ht⟩ := ih (bitCell s) (by omega)
    have hcfg : (bitCell s).cfg = s.cfg := by rw [bitCell_eq]
    refine ⟨⟨s.cfg.tHalf + s.env.nextDelay, s.env.nextLevel, s.cfg.tHalf + s.env.popDelay.nextDelay⟩ :: cells,
      by simp [hl], ?_, ?_, ?_⟩
    · intro x hx'
      rcases List.mem_cons.mp hx' with rfl | h
      · simp
      · have := hx x h; rwa [hcfg] at this
    · have he : (bitCell s).env.levelsAhead n = s.env.popLevel.levelsAhead n := by
        rw [bitCell_eq]; simp
      simp [Env.levelsAhead, hm, he]
    · rw [show bitCells (n + 1) s = bitCells n (bitCell s) from rfl, ht, hc, bitCell_eq]
      simp [cellEvents, List.append_assoc]

/-- What step 5 does in `BITBANG` mode (40_transaction_engine.md R80). -/
theorem shiftBitbang_spec (s : State) :
    (shiftBitbang s).cfg = s.cfg ∧ (shiftBitbang s).cs = s.cs ∧ (shiftBitbang s).sck = { s.sck with latch := .L } ∧
    (shiftBitbang s).soDir = s.soDir ∧ (shiftBitbang s).ready = s.ready ∧ (shiftBitbang s).busy = s.busy ∧
    (shiftBitbang s).rsp = s.rsp ∧ (shiftBitbang s).rspValid = s.rspValid ∧ (shiftBitbang s).phase = s.phase ∧
    (shiftBitbang s).cmdreg = s.cmdreg ∧ (shiftBitbang s).shreg = s.env.frameAhead ∧ (shiftBitbang s).bitcnt = 32#6 ∧
    (shiftBitbang s).env = (s.env.popLevels 32).popDelays 65 ∧
    ∃ lead cells, s.cfg.tHalf ≤ lead ∧ cells.length = 32 ∧
      (∀ x ∈ cells, s.cfg.tHalf ≤ x.high ∧ s.cfg.tHalf ≤ x.low) ∧ cells.map Cell.level = s.env.levelsAhead 32 ∧
      (shiftBitbang s).trace = s.trace ++ bitbangEvents lead cells := by
  obtain ⟨h1, h2, -, h4, h5, h6, h7, h8, h9, h10, h11, h12, h13⟩ :=
    bitCells_fields 32 (wait (clearShift s).cfg.tHalf (clearShift s))
  have hs := bitCells_sck 31 (wait (clearShift s).cfg.tHalf (clearShift s))
  obtain ⟨cells, hl, hx, hm, ht⟩ := bitCells_trace 32 (wait (clearShift s).cfg.tHalf (clearShift s)) (by simp)
  simp only [shiftBitbang]
  refine ⟨h1, h2, hs, h4, h5, h6, h7, h8, h9, h10, ?_, ?_, ?_, s.cfg.tHalf + s.env.nextDelay, cells, Nat.le_add_right _ _, hl, hx,
    ?_, ?_⟩
  · rw [h11]; simp [Env.frameAhead, assemble]
  · rw [h12]; rfl
  · rw [h13]; simp [Env.popDelays]
  · simpa using hm
  · rw [ht]; simp [bitbangEvents]

/-- What step 5 does in `PERIPH` mode (40_transaction_engine.md R81). -/
theorem shiftPeriph_eq (s : State) :
    shiftPeriph s = { s with
      shreg := s.env.frameAhead
      trace := s.trace ++ periphEvents (spiSettings s.cfg) s.env.frameAhead
      env := s.env.popLevels 32 } := by
  simp [shiftPeriph, log, spiTransfer32, periphEvents]

/-- What step 5 does in either transport. -/
theorem step5_spec (s : State) :
    (step5 s).cfg = s.cfg ∧ (step5 s).cs = s.cs ∧ (step5 s).sck.dir = s.sck.dir ∧
    (s.cfg.mode = .bitbang → (step5 s).sck.latch = .L) ∧ (s.cfg.mode = .periph → (step5 s).sck = s.sck) ∧
    (step5 s).soDir = s.soDir ∧ (step5 s).ready = s.ready ∧ (step5 s).busy = s.busy ∧
    (step5 s).rsp = s.rsp ∧ (step5 s).rspValid = s.rspValid ∧ (step5 s).phase = s.phase ∧
    (step5 s).cmdreg = s.cmdreg ∧ (step5 s).shreg = s.env.frameAhead ∧
    (step5 s).bitcnt = (if s.cfg.mode = .bitbang then 32#6 else s.bitcnt) ∧
    (step5 s).env = (s.env.popLevels 32).popDelays (if s.cfg.mode = .bitbang then 65 else 0) ∧
    ∃ evs, Step5Events s.cfg s.env.frameAhead evs ∧ (step5 s).trace = s.trace ++ evs := by
  cases hm : s.cfg.mode with
  | bitbang =>
    obtain ⟨h1, h2, h3, h4, h5, h6, h7, h8, h9, h10, h11, h12, h13, lead, cells, hl, hc, hx, hv, ht⟩ :=
      shiftBitbang_spec s
    have e : step5 s = shiftBitbang s := by simp [step5, hm]
    rw [e]
    refine ⟨h1, h2, by rw [h3], by simp [h3], by simp, h4, h5, h6, h7, h8, h9, h10, h11, by simpa using h12,
      by simpa using h13, bitbangEvents lead cells, ?_, ht⟩
    simp only [Step5Events, hm]
    exact ⟨lead, cells, hl, hc, hx, by rw [hv]; rfl, rfl⟩
  | periph =>
    have e : step5 s = shiftPeriph s := by simp [step5, hm]
    rw [e, shiftPeriph_eq]
    refine ⟨rfl, rfl, rfl, by simp, by simp, rfl, rfl, rfl, rfl, rfl, rfl, rfl, rfl, by simp, by simp [Env.popDelays],
      periphEvents (spiSettings s.cfg) s.env.frameAhead, ?_, rfl⟩
    simp [Step5Events, hm, spiSettings]

/-- What a transaction does, field by field (40_transaction_engine.md R72, R84). -/
theorem transaction_spec (s : State) :
    (transaction s).cfg = s.cfg ∧ (transaction s).cs = { s.cs with latch := .H } ∧
    (transaction s).sck.dir = s.sck.dir ∧
    (s.cfg.mode = .bitbang → (transaction s).sck.latch = .L) ∧ (s.cfg.mode = .periph → (transaction s).sck = s.sck) ∧
    (transaction s).soDir = s.soDir ∧ (transaction s).ready = s.ready ∧ (transaction s).busy = s.busy ∧
    (transaction s).rsp = s.rsp ∧ (transaction s).rspValid = s.rspValid ∧ (transaction s).phase = .close ∧
    (transaction s).cmdreg = s.cmdreg ∧ (transaction s).shreg = s.env.frameAhead ∧
    (transaction s).bitcnt = (if s.cfg.mode = .bitbang then 32#6 else s.bitcnt) ∧
    (transaction s).env = (s.env.popLevels 32).popDelays (if s.cfg.mode = .bitbang then 67 else 2) ∧
    ∃ evs, TransactionEvents s.cfg s.env.frameAhead evs ∧ (transaction s).trace = s.trace ++ evs := by
  let p := setPhase .shift (step4 (setPhase .opened (step3 (step2 (setPhase .settle (step1 (setPhase .stop s)))))))
  have hp : p = { s with
      phase := .shift
      cs := { s.cs with latch := .L }
      timer := s.cfg.tSettle + s.env.popDelay.nextDelay
      trace := s.trace ++ openingEvents (s.cfg.tHold + s.env.nextDelay) (s.cfg.tSettle + s.env.popDelay.nextDelay)
      env := s.env.popDelay.popDelay } := by
    simp [p, step1, step2, step3, step4, setPhase, pinWrite, wait, openingEvents]
  have ht : transaction s = step6 (setPhase .close (step5 p)) := rfl
  obtain ⟨h1, h2, h3, hL, hP, h4, h5, h6, h7, h8, h9, h10, h11, h12, h13, evs, hev, htr⟩ := step5_spec p
  rw [ht]
  have hcfg : p.cfg = s.cfg := by rw [hp]
  refine ⟨?_, ?_, ?_, ?_, ?_, ?_, ?_, ?_, ?_, ?_, rfl, ?_, ?_, ?_, ?_,
    openingEvents (s.cfg.tHold + s.env.nextDelay) (s.cfg.tSettle + s.env.popDelay.nextDelay) ++ evs ++ [.pin .cs .H], ?_, ?_⟩
  all_goals try simp only [step6, pinWrite_cs_cfg, pinWrite_cs_cs, pinWrite_cs_sck, pinWrite_cs_soDir, pinWrite_cs_ready,
    pinWrite_cs_busy, pinWrite_cs_rsp, pinWrite_cs_rspValid, pinWrite_cs_cmdreg, pinWrite_cs_shreg, pinWrite_cs_bitcnt,
    pinWrite_cs_env, pinWrite_cs_trace, setPhase_cfg, setPhase_cs, setPhase_sck, setPhase_soDir, setPhase_ready,
    setPhase_busy, setPhase_rsp, setPhase_rspValid, setPhase_cmdreg, setPhase_shreg, setPhase_bitcnt, setPhase_env,
    setPhase_trace]
  · rw [h1, hp]
  · rw [h2, hp]
  · rw [h3, hp]
  · intro hm; exact hL (by rw [hcfg]; exact hm)
  · intro hm; rw [hP (by rw [hcfg]; exact hm), hp]
  · rw [h4, hp]
  · rw [h5, hp]
  · rw [h6, hp]
  · rw [h7, hp]
  · rw [h8, hp]
  · rw [h10, hp]
  · rw [h11, hp]; simp
  · rw [h12, hcfg]; rw [hp]
  · rw [h13, hcfg, hp]
    by_cases hm : s.cfg.mode = .bitbang
    · simp [hm, Env.popDelays]
    · simp [hm, Env.popDelays]
  · have hf : p.env.frameAhead = s.env.frameAhead := by rw [hp]; simp
    rw [hcfg, hf] at hev
    exact ⟨_, _, evs, Nat.le_add_right _ _, Nat.le_add_right _ _, hev, rfl⟩
  · rw [htr, hp]; simp [List.append_assoc]

/-! ### Commands and steps -/

/-- A command that uses the bus is one of two things. -/
theorem busCommand_eq (a : Frame → Response) (s : State) :
    busCommand a s = .next (if s.ready then respond (a (transaction s).shreg) (transaction s)
      else respond notReadyResponse s) := by
  cases h : s.ready <;> simp [busCommand, h]

/-- Every command ends in a next state (60_exceptions.md R130): what it is. -/
theorem exec_eq (i : Instr) (s : State) :
    exec i s = .next (
      if i = .init then
        respond (okResponse 0#32) (setReady (wait (initLines (setPhase .pwrup s)).cfg.tPowerup (initLines (setPhase .pwrup s))))
      else if usesBus i then
        (if s.ready then respond (answerFor s.cfg i (transaction s).shreg) (transaction s) else respond notReadyResponse s)
      else respond (answerFor s.cfg i s.shreg) s) := by
  cases i <;>
    simp [exec, execInit, execAcq, execFault, execIdok, execTct, execCjt, execFaultF, execIdokF, execTctF, execCjtF,
      usesBus, answerFor, busCommand_eq]

/-- An accepted command word ends in a next state. -/
theorem runCommand_eq (w : CmdWord) (s : State) :
    runCommand w s = match decode w with
      | .ok i => exec i (accept w s)
      | .error _ => .next (respond illegalResponse (accept w s)) := rfl

/-- Everything a step can be. -/
theorem step_cases (s : State) :
    (∃ rest, s.env.host = .reset :: rest ∧ step s = .next (assertReset (withHost rest s))) ∨
    (∃ rest, s.env.host = .readResponse :: rest ∧ step s = readResponse (withHost rest s)) ∨
    ((∀ rest, s.env.host ≠ .reset :: rest) ∧ (∀ rest, s.env.host ≠ .readResponse :: rest) ∧ s.busy = true ∧
      step s = .next (tick s)) ∨
    (∃ w rest, s.env.host = .command w :: rest ∧ s.busy = false ∧ step s = runCommand w (withHost rest s)) ∨
    (s.env.host = [] ∧ s.busy = false ∧ step s = .next s) := by
  unfold step stepHost
  rcases h : s.env.host with _ | ⟨m, rest⟩
  · cases hb : s.busy <;> simp
  · cases m <;> cases hb : s.busy <;> simp

/-- What `INIT` does before its response, field by field (40_transaction_engine.md R70). -/
theorem initLines_spec (s : State) :
    (initLines s).cfg = s.cfg ∧ (initLines s).cs = { dir := .output, latch := .H } ∧
    (initLines s).sck = (match s.cfg.mode with | .bitbang => { dir := .output, latch := .L } | .periph => s.sck) ∧
    (initLines s).soDir = (match s.cfg.mode with | .bitbang => .input | .periph => s.soDir) ∧
    (initLines s).env = s.env ∧ (initLines s).shreg = s.shreg ∧ (initLines s).bitcnt = s.bitcnt ∧
    (initLines s).cmdreg = s.cmdreg ∧ (initLines s).ready = s.ready ∧ (initLines s).phase = s.phase ∧
    ∀ d, (initLines s).trace ++ [.wait d] = s.trace ++ initEvents s.cfg.mode d := by
  cases hm : s.cfg.mode <;>
    simp [initLines, hm, initEvents, pinDir, pinWrite, log]

end Sys2Proof.Machine
end

