-- ==== Sys2Proof/Laws/Decoder.lean ====
section
/-! SUPPORT. The decoder's functions in terms of frame bits and integers, said once. -/

namespace Sys2Proof.Machine

/-- The fault code is `Ok` exactly when the fault flag is clear, whatever `D2`, `D1`, `D0` are. -/
theorem faultCode_eq_ok_iff (f : Frame) : faultCode f = .ok ↔ flt f = false := by
  unfold faultCode
  cases flt f <;> simp
  split
  · simp
  · split
    · simp
    · split <;> simp

/-- The identity check passes exactly when both identity bits are zero. -/
theorem identityOk_iff (f : Frame) : identityOk f = true ↔ id1 f = false ∧ id0 f = false := by
  unfold identityOk
  cases id1 f <;> cases id0 f <;> simp

/-- Sign extension keeps the thermocouple field's number. -/
theorem tcValue_toInt (f : Frame) : (tcValue f).toInt = tcSteps f :=
  BitVec.toInt_signExtend_of_le (by omega)

/-- Sign extension keeps the cold-junction field's number. -/
theorem cjValue_toInt (f : Frame) : (cjValue f).toInt = cjSteps f :=
  BitVec.toInt_signExtend_of_le (by omega)

/-- The answer of `TCT` is the marker or the field (41_frame_decoder.md R103). -/
theorem tctResponse_cases (c : Cfg) (f : Frame) :
    ((faultCode f ≠ .ok ∨ identityOk f = false) ∧ tctResponse c f = markerResponse c) ∨
    (faultCode f = .ok ∧ identityOk f = true ∧ tctResponse c f = okResponse (tcValue f)) := by
  by_cases h : faultCode f ≠ .ok ∨ identityOk f = false
  · exact .inl ⟨h, if_pos h⟩
  · refine .inr ⟨?_, ?_, if_neg h⟩
    · by_contra hf; exact h (.inl hf)
    · cases hi : identityOk f
      · exact absurd (.inr hi) h
      · rfl

/-- The answer of `CJT` is the marker or the field (41_frame_decoder.md R104). -/
theorem cjtResponse_cases (c : Cfg) (f : Frame) :
    (identityOk f = false ∧ cjtResponse c f = markerResponse c) ∨
    (identityOk f = true ∧ cjtResponse c f = okResponse (cjValue f)) := by
  cases hi : identityOk f
  · exact .inl ⟨rfl, if_pos hi⟩
  · exact .inr ⟨rfl, if_neg (by simp [hi])⟩

/-- A response changes nothing but what a response changes. -/
theorem answered_respond (s : State) (r : Response) : Answered s (respond r s) r.status r.value := rfl

end Sys2Proof.Machine
end

