-- ==== Sys2Proof/Laws/PerInstr.lean ====
section
/-! SUPPORT. Facts of the encoding, and the per-instruction family `RowMatch`: the encoder's word of a command agrees with
the `match` and `mask` of its row in spec/opcode_table.json. -/

namespace Sys2Proof

/-- The selector of a word written as selector and operand (30_encoding.md R54). -/
theorem selector_append (sel : BitVec 4) (x : Frame) : CmdWord.selector (sel ++ x) = sel := by
  ext i hi
  simp only [CmdWord.selector, BitVec.getElem_extractLsb']
  show BitVec.getLsbD (w := 4 + 32) (sel ++ x) (32 + i) = _
  rw [BitVec.getLsbD_append]
  simp [BitVec.getLsbD_eq_getElem hi]

/-- The operand of a word written as selector and operand (30_encoding.md R54). -/
theorem frameIn_append (sel : BitVec 4) (x : Frame) : CmdWord.frameIn (sel ++ x) = x := by
  ext i hi
  simp only [CmdWord.frameIn, BitVec.getElem_extractLsb', Nat.zero_add]
  show BitVec.getLsbD (w := 4 + 32) (sel ++ x) i = _
  rw [BitVec.getLsbD_append]
  simp [hi]

/-- A command word is its selector and its operand (30_encoding.md R54). -/
theorem eq_append (w : CmdWord) : w = (w.selector ++ w.frameIn : BitVec (4 + 32)) := by
  apply BitVec.eq_of_getLsbD_eq
  intro i hi
  show w.getLsbD i = BitVec.getLsbD (w := 4 + 32) (w.selector ++ w.frameIn) i
  rw [BitVec.getLsbD_append]
  by_cases h : i < 32
  · simp [h, CmdWord.frameIn]
  · have h4 : i - 32 < 4 := by omega
    simp [h, h4, CmdWord.selector, show 32 + (i - 32) = i by omega]

/-- The `mask` column of spec/opcode_table.json, one value for every row. -/
def rowMask : CmdWord := 0xF00000000#36

/-- Masking a word keeps its selector and clears its operand. -/
theorem append_and_rowMask (sel : BitVec 4) (x : Frame) :
    (sel ++ x : CmdWord) &&& rowMask = (sel ++ 0#32 : CmdWord) := by
  have h : rowMask = (0xF#4 ++ 0#32 : BitVec (4 + 32)) := rfl
  rw [h]
  show ((sel ++ x) &&& (0xF#4 ++ 0#32) : BitVec (4 + 32)) = _
  rw [BitVec.and_append]
  have h1 : sel &&& 0xF#4 = sel := by
    have : (0xF#4) = BitVec.allOnes 4 := rfl
    rw [this, BitVec.and_allOnes]
  simp [h1]

/-- The `match` column of a command's row in spec/opcode_table.json. -/
def rowMatch (i : Instr) : CmdWord :=
  match i with
  | .init => 0x000000000#36
  | .acq => 0x900000000#36
  | .fault _ => 0x200000000#36
  | .idok _ => 0x300000000#36
  | .tct _ => 0x400000000#36
  | .cjt _ => 0x500000000#36
  | .faultF => 0xA00000000#36
  | .idokF => 0xB00000000#36
  | .tctF => 0xC00000000#36
  | .cjtF => 0xD00000000#36

end Sys2Proof

namespace Sys2Proof.Laws.RowMatch

/-- The encoder's word of `i` is a word of `i`'s row of the opcode table: `word & mask = match` (30_encoding.md R56). -/
def Statement (i : Instr) : Prop := encode i &&& rowMask = rowMatch i

theorem init : Statement .init := append_and_rowMask _ _
theorem acq : Statement .acq := append_and_rowMask _ _
theorem fault (f : Frame) : Statement (.fault f) := (append_and_rowMask 0x2#4 f).trans rfl
theorem idok (f : Frame) : Statement (.idok f) := (append_and_rowMask 0x3#4 f).trans rfl
theorem tct (f : Frame) : Statement (.tct f) := (append_and_rowMask 0x4#4 f).trans rfl
theorem cjt (f : Frame) : Statement (.cjt f) := (append_and_rowMask 0x5#4 f).trans rfl
theorem faultF : Statement .faultF := append_and_rowMask _ _
theorem idokF : Statement .idokF := append_and_rowMask _ _
theorem tctF : Statement .tctF := append_and_rowMask _ _
theorem cjtF : Statement .cjtF := append_and_rowMask _ _

end Sys2Proof.Laws.RowMatch
end

