-- ==== Sys2Proof/Laws/Sequencer.lean ====
section
/-! SUPPORT. What a move of the sequencer keeps, and how moves compose. -/

namespace Sys2Proof.Machine

/-- A wait, or what comes after it. -/
theorem afterWait_cases (b : Nat) (s g : State) :
    (s.timer < b ∧ afterWait b s g = wait b s) ∨ (b ≤ s.timer ∧ afterWait b s g = g) := by
  unfold afterWait
  by_cases h : s.timer < b
  · exact .inl ⟨h, if_pos h⟩
  · exact .inr ⟨by omega, if_neg h⟩

/-- What no move of the sequencer changes: the command, the configuration, the host's side. -/
structure Keeps (s t : State) : Prop where
  cmdreg : t.cmdreg = s.cmdreg
  cfg : t.cfg = s.cfg
  host : t.env.host = s.env.host
  reads : t.env.reads = s.env.reads

theorem afterWait_keeps {b : Nat} {s g : State} (h : Keeps s g) : Keeps s (afterWait b s g) := by
  rcases afterWait_cases b s g with ⟨_, e⟩ | ⟨_, e⟩ <;> rw [e]
  · exact ⟨rfl, rfl, rfl, rfl⟩
  · exact h

theorem beginCommand_keeps (s : State) : Keeps s (beginCommand s) := by
  unfold beginCommand
  split
  · exact ⟨rfl, rfl, rfl, rfl⟩
  · split
    · split <;> exact ⟨rfl, rfl, rfl, rfl⟩
    · split
      · unfold beginInit
        simp only
        split <;> exact ⟨rfl, rfl, rfl, rfl⟩
      · exact ⟨rfl, rfl, rfl, rfl⟩

theorem tickShift_keeps (s : State) : Keeps s (tickShift s) := by
  unfold tickShift
  apply afterWait_keeps
  split
  · exact ⟨rfl, rfl, rfl, rfl⟩
  · split <;> exact ⟨rfl, rfl, rfl, rfl⟩

theorem tick_keeps (s : State) : Keeps s (tick s) := by
  unfold tick
  split
  · exact beginCommand_keeps s
  · exact afterWait_keeps ⟨rfl, rfl, rfl, rfl⟩
  · exact afterWait_keeps ⟨rfl, rfl, rfl, rfl⟩
  · exact afterWait_keeps ⟨rfl, rfl, rfl, rfl⟩
  · split <;> exact ⟨rfl, rfl, rfl, rfl⟩
  · split
    · exact tickShift_keeps s
    · exact ⟨rfl, rfl, by simp, by simp⟩
  · exact ⟨rfl, rfl, rfl, rfl⟩

theorem ticks_succ (n : Nat) (s : State) (h : s.busy = true) : ticks (n + 1) s = ticks n (tick s) := by
  simp [ticks, h]

theorem ticks_of_idle (n : Nat) (s : State) (h : s.busy = false) : ticks n s = s := by
  cases n <;> simp [ticks, h]

theorem ticks_add (n m : Nat) (s : State) : ticks (n + m) s = ticks m (ticks n s) := by
  induction n generalizing s with
  | zero => simp [ticks]
  | succ n ih =>
    rw [show n + 1 + m = n + m + 1 by omega]
    cases h : s.busy
    · rw [ticks_of_idle _ _ h, ticks_of_idle _ _ h, ticks_of_idle _ _ h]
    · rw [ticks_succ _ _ h, ticks_succ _ _ h, ih]

/-- A command that needs the bus, with `READY = 1` (42_fresh_forms.md R120). -/
theorem exec_bus_ready (i : Instr) (s : State) (h : usesBus i = true) (hr : s.ready = true) :
    exec i s = .next (respond (answerFor s.cfg i s.env.frameAhead) (transaction s)) := by
  have hs : (transaction s).shreg = s.env.frameAhead := (transaction_spec s).2.2.2.2.2.2.2.2.2.2.2.2.1
  rw [exec_eq, if_neg (by rintro rfl; simp [usesBus] at h), if_pos h, if_pos hr, hs]

end Sys2Proof.Machine
end

