-- ==== Sys2Proof/Tests/Slice0.lean ====
section
/-! SUPPORT. Tests on small states, each expected result taken from spec/95_test_vectors.md or worked out from the rule it
names, and for every statement with hypotheses a witness that meets them all. -/

namespace Sys2Proof.Tests

open Sys2Proof.Machine

/-! ### Helpers -/

/-- The next state of an outcome. -/
def nextOf (o : Host.Outcome State Fault Refusal) : Option State :=
  match o with
  | .next s => some s
  | .fault _ => none
  | .refused _ => none

/-- The bits of a frame in the order in which they cross the line, `D31` first (20_memory.md R35). -/
def bitsOf (f : Frame) : List Bool := (List.range 32).map fun k => f.getLsbD (31 - k)

/-- The state after reset with a mode, levels on the line and host moves; every wait lasts exactly its bound. -/
def fresh (m : Mode) (levels : List Bool) (host : List HostMove) : State :=
  State.resetWith { Cfg.default with mode := m }
    { Env.silent with levels := levels, host := host, delays := List.replicate 70 0 }

/-- The same after an `INIT` (10_state.md R22), with its power-up wait in the trace. -/
def readied (m : Mode) (levels : List Bool) (host : List HostMove) : State :=
  { fresh m levels host with
    ready := true
    cs := { dir := .output, latch := .H }
    sck := match m with | .bitbang => { dir := .output, latch := .L } | .periph => { dir := .input, latch := .L }
    trace := [.wait 200000000] }

/-- An `ACQ` in protocol step 1: the first move of the walk has been made. -/
def inStop : State := tick (accept 0x900000000#36 (readied .bitbang [] []))

/-- The response that a command leaves. -/
def responseOf (o : Host.Outcome State Fault Refusal) : Option (Status × BitVec 32) :=
  (nextOf o).map fun s => (rspStatus s.rsp, rspValue s.rsp)

/-! ### Well-formedness: an ill-formed term for each check -/

/-- R56, R60: all six reserved selectors are ill formed, the others' ends well formed. -/
theorem test_word_wellFormed_refuses_reserved :
    ¬CmdWord.WellFormed 0x100000000#36 ∧ ¬CmdWord.WellFormed 0x6015002C0#36 ∧ ¬CmdWord.WellFormed 0x700000000#36 ∧
    ¬CmdWord.WellFormed 0x800000000#36 ∧ ¬CmdWord.WellFormed 0xE00000000#36 ∧ ¬CmdWord.WellFormed 0xFFFFFFFFF#36 ∧
    CmdWord.WellFormed 0x000000000#36 ∧ CmdWord.WellFormed 0xD00000000#36 := by
  decide

/-- R5: the default configuration meets the constraints. -/
theorem test_default_cfg_wellFormed : Cfg.default.WellFormed := by decide

/-- One configuration against each constraint of R5, in the order of `Cfg.WellFormed`. -/
def illFormedCfgs : List Cfg :=
  [{ Cfg.default with tHold := 0 }, { Cfg.default with tSettle := 0 }, { Cfg.default with tPowerup := 0 },
   { Cfg.default with fSckMax := 0 }, { Cfg.default with fClk := 0 }, { Cfg.default with tHalf := 499 },
   { Cfg.default with errMarker := 0x00001FFF#32 }, { Cfg.default with errMarker := 0xFFFFE000#32 }]

/-- R5: each of them is refused. -/
theorem test_cfg_wellFormed_refuses : ∀ c ∈ illFormedCfgs, ¬c.WellFormed := by decide

/-- `Instr` has no ill-formed term (R54, R61): its one check accepts every row of the table. -/
theorem test_instr_wellFormed : Instr.wellFormed (.tct 0xFFFFFFFF#32) = true ∧ Instr.wellFormed .init = true := by decide

/-! ### Decoding: words written out bit by bit from R54 and R56 -/

theorem test_decode_init : decode 0b0000_00000000000000000000000000000000#36 = .ok .init := by decide
theorem test_decode_acq : decode 0b1001_00000000000000000000000000000000#36 = .ok .acq := by decide
theorem test_decode_acq_ignores_operand : decode 0x9DEADBEEF#36 = .ok .acq := by decide
theorem test_decode_fault : decode 0b0010_00000000000000010000000000000010#36 = .ok (.fault 0x00010002#32) := by decide
theorem test_decode_idok : decode 0b0011_00000000000000100000000000000000#36 = .ok (.idok 0x00020000#32) := by decide
theorem test_decode_tct : decode 0b0100_00000001010100000000001011000000#36 = .ok (.tct 0x015002C0#32) := by decide
theorem test_decode_cjt : decode 0b0101_00000001010100000000001011000000#36 = .ok (.cjt 0x015002C0#32) := by decide
theorem test_decode_faultF : decode 0b1010_00000000000000000000000000000000#36 = .ok .faultF := by decide
theorem test_decode_idokF : decode 0b1011_11111111111111111111111111111111#36 = .ok .idokF := by decide
theorem test_decode_tctF : decode 0b1100_00000000000000000000000000000000#36 = .ok .tctF := by decide
theorem test_decode_cjtF : decode 0b1101_00000000000000000000000000000000#36 = .ok .cjtF := by decide

/-- T4: the reserved words are refused by name. -/
theorem test_decode_reserved :
    decode 0x100000000#36 = .error (.reserved 0x1) ∧ decode 0x6015002C0#36 = .error (.reserved 0x6) ∧
    decode 0x700000000#36 = .error (.reserved 0x7) ∧ decode 0x800000000#36 = .error (.reserved 0x8) ∧
    decode 0xE00000000#36 = .error (.reserved 0xE) ∧ decode 0xFFFFFFFFF#36 = .error (.reserved 0xF) := by decide

/-- The table's numbering: bit 0 is the least significant bit of the 36-bit word, and there is no 37th bit. -/
theorem test_decodeTableWord :
    decodeTableWord 40 0x4015002C0 = some (.tct 0x015002C0#32) ∧ decodeTableWord 40 0xD00000000 = some .cjtF ∧
    decodeTableWord 40 0x700000000 = none ∧ decodeTableWord 40 0x4015002C00 = none := by decide

/-! ### The step -/

/-- A placed word is what the next step runs, from reset: `TCT` before `INIT` answers (P2, line 1). -/
theorem test_step_runs_placed_word :
    responseOf (step (State.reset.withFetchWord 40 0x4015002C0)) = some (.ok, 0x00000054#32) := by decide

/-- P2, line 6: a reserved word answers `ILLEGAL` before `INIT`. -/
theorem test_step_reserved_word :
    responseOf (step (State.reset.withFetchWord 40 0x700000000)) = some (.illegal, 0#32) := by decide

/-- R133, P2: `IDOK.F` before `INIT` answers `NOT_READY`, and the pins stay undriven. -/
theorem test_step_idokF_not_ready :
    (nextOf (step (State.reset.withFetchWord 40 0xB00000000))).map (fun s => (rspStatus s.rsp, s.cs.line, s.trace)) =
      some (.notReady, none, [.resp .notReady 0#32]) := by decide

/-- R17: the read of a response that is not valid is the one fault. -/
theorem test_step_invalid_read :
    nextOf (step (fresh .bitbang [] [.readResponse])) = none := by decide

/-! ### The commands -/

/-- R70, worked example: the trace of `INIT` from reset in `BITBANG` mode. -/
theorem test_init_bitbang_trace :
    (nextOf (exec .init (fresh .bitbang [] []))).map (fun s => (s.trace, s.ready, s.cs.line, s.sck.line)) =
      some ([.dir .cs .output, .dir .sck .output, .dir .so .input, .pin .cs .H, .pin .sck .L, .wait 200000000,
        .resp .ok 0#32], true, some .H, some .L) := by decide

/-- R70 in `PERIPH` mode: no `sck` event. -/
theorem test_init_periph_trace :
    (nextOf (exec .init (fresh .periph [] []))).map (fun s => (s.trace, s.sck.line)) =
      some ([.dir .cs .output, .pin .cs .H, .spiInit, .wait 200000000, .resp .ok 0#32], none) := by decide

set_option maxRecDepth 8000 in
/-- R71, worked example, and T5, row 1: the samples of `0x015002C0`. -/
theorem test_acq_bitbang :
    responseOf (exec .acq (readied .bitbang (bitsOf 0x015002C0#32) [])) = some (.ok, 0x015002C0#32) := by decide

/-- R84, `PERIPH`: the whole trace of an `ACQ` whose transfer returns `0xF060E700`. -/
theorem test_acq_periph_trace :
    (nextOf (exec .acq (readied .periph (bitsOf 0xF060E700#32) []))).map (fun s => s.trace.drop 1) =
      some [.pin .cs .L, .wait 1000, .pin .cs .H, .wait 100000000, .pin .cs .L,
        .spiBegin { rateLimit := 1000000, msbFirst := true, sampleOnFalling := true, clockIdle := .L },
        .spiTransfer 32 0xF060E700#32, .spiEnd, .pin .cs .H, .resp .ok 0xF060E700#32] := by decide

/-- T1, rows 6, 9, 12, 16. -/
theorem test_fault_codes :
    [0x00000005#32, 0x00010000#32, 0x00010003#32, 0x00010007#32].map
      (fun f => responseOf (exec (.fault f) (fresh .bitbang [] []))) =
      [some (.ok, 0#32), some (.ok, 4#32), some (.ok, 2#32), some (.ok, 1#32)] := by decide

/-- T2: each identity bit alone, both, none. -/
theorem test_idok_bits :
    [0x00020000#32, 0x00000008#32, 0x00020008#32, 0xFFFDFFF7#32].map
      (fun f => responseOf (exec (.idok f) (fresh .bitbang [] []))) =
      [some (.ok, 0#32), some (.ok, 0#32), some (.ok, 0#32), some (.ok, 1#32)] := by decide

/-- T2: minus one step, both extremes, `Unknown`, a clear `D16` with `D2..D0` set. -/
theorem test_tct_frames :
    [0xFFFC0000#32, 0x7FFC7FF0#32, 0x80008000#32, 0x00010000#32, 0x015002C7#32].map
      (fun f => responseOf (exec (.tct f) (fresh .bitbang [] []))) =
      [some (.ok, 0xFFFFFFFF#32), some (.ok, 0x00001FFF#32), some (.ok, 0xFFFFE000#32), some (.errmark, 0x80000000#32),
        some (.ok, 0x00000054#32)] := by decide

/-- T2: no leak from the upper half, both extremes, a fault that spares the cold junction, an identity failure. -/
theorem test_cjt_frames :
    [0xFFFC0000#32, 0x7FFC7FF0#32, 0x80008000#32, 0x015102C1#32, 0x015002C8#32].map
      (fun f => responseOf (exec (.cjt f) (fresh .bitbang [] []))) =
      [some (.ok, 0#32), some (.ok, 0x000007FF#32), some (.ok, 0xFFFFF800#32), some (.ok, 0x0000002C#32),
        some (.errmark, 0x80000000#32)] := by decide

set_option maxRecDepth 8000 in
/-- R121, worked example. -/
theorem test_faultF : responseOf (exec .faultF (readied .periph (bitsOf 0x00010001#32) [])) = some (.ok, 3#32) := by decide

set_option maxRecDepth 8000 in
/-- P3, line 1: a dead bus. -/
theorem test_idokF : responseOf (exec .idokF (readied .periph (List.replicate 32 true) [])) = some (.ok, 0#32) := by decide

set_option maxRecDepth 8000 in
/-- P4, line 1. -/
theorem test_tctF :
    responseOf (exec .tctF (readied .periph (bitsOf 0x015102C1#32) [])) = some (.errmark, 0x80000000#32) := by decide

set_option maxRecDepth 8000 in
/-- P4, line 2. -/
theorem test_cjtF :
    responseOf (exec .cjtF (readied .bitbang (bitsOf 0xF060E700#32) [])) = some (.ok, 0xFFFFFE70#32) := by decide

/-- T5: the first sample is `D31`, the last is `D0`. -/
theorem test_assemble_ends :
    assemble (true :: List.replicate 31 false) = 0x80000000#32 ∧ assemble (List.replicate 31 false ++ [true]) = 1#32 := by
  decide

/-! ### Witnesses: the hypotheses of each statement are met together -/

/-- `DecodeEncodeRoundTrip`, `EncodeDecodeRoundTrip`, both cases of the latter. -/
theorem witness_round_trips :
    Instr.wellFormed (.cjt 0xFFFFFFFF#32) = true ∧ decode 0x5FFFFFFFF#36 = .ok (.cjt 0xFFFFFFFF#32) ∧
    isSupplied (.cjt 0xFFFFFFFF#32) = true ∧ decode 0xDFFFFFFFF#36 = .ok .cjtF ∧ isSupplied .cjtF = false := by decide

/-- `DecodeRefusesExactlyReserved`: both clauses, at the ends of the selector's range. -/
theorem witness_reserved_and_legal :
    (0xFFFFFFFFF#36).extractLsb' 32 4 ∈ ([0x1, 0x6, 0x7, 0x8, 0xE, 0xF] : List (BitVec 4)) ∧
    (0x000000000#36).extractLsb' 32 4 ∉ ([0x1, 0x6, 0x7, 0x8, 0xE, 0xF] : List (BitVec 4)) := by decide

/-- `StepRunsDecodedCommand`, `SuppliedDecodesArePure` (the word is the encoder's), `OneResponsePerCommand`, first part. -/
theorem witness_step_command :
    (fresh .bitbang [] [.command (encode (.tct 0x015002C0#32))]).busy = false ∧
    (fresh .bitbang [] [.command (encode (.tct 0x015002C0#32))]).phase = .idle ∧
    (fresh .bitbang [] [.command (encode (.tct 0x015002C0#32))]).env.host = .command (encode (.tct 0x015002C0#32)) :: [] ∧
    decode (encode (.tct 0x015002C0#32)) = .ok (.tct 0x015002C0#32) ∧ isSupplied (.tct 0x015002C0#32) = true := by decide

/-- `ReservedWordAnswersIllegal`, with `READY` 0 and with `READY` 1. -/
theorem witness_reserved_word :
    ∀ s ∈ [fresh .periph [] [.command 0x8DEADBEEF#36], readied .periph [] [.command 0x8DEADBEEF#36]],
      s.busy = false ∧ s.phase = .idle ∧ s.env.host = .command 0x8DEADBEEF#36 :: [] ∧
      (0x8DEADBEEF#36).extractLsb' 32 4 ∈ ([0x1, 0x6, 0x7, 0x8, 0xE, 0xF] : List (BitVec 4)) := by decide

/-- `IdleBlockWaits`. -/
theorem witness_idle : State.reset.busy = false ∧ State.reset.env.host = [] := by decide

/-- `BusyBlockAcceptsNothing`, first part, and `PhaseWalksForward`. -/
theorem witness_busy :
    (withHost [.command 0x000000000#36] inStop).busy = true ∧
    (withHost [.command 0x000000000#36] inStop).env.host = .command 0x000000000#36 :: [] ∧ inStop.phase = .stop := by
  decide

/-- `ResponseReadNeedsValid`: a state for each clause. -/
theorem witness_reads :
    (fresh .bitbang [] [.readResponse]).env.host = .readResponse :: [] ∧ (fresh .bitbang [] [.readResponse]).rspValid = false ∧
    (respond illegalResponse (fresh .bitbang [] [.readResponse])).env.host = .readResponse :: [] ∧
    (respond illegalResponse (fresh .bitbang [] [.readResponse])).rspValid = true := by decide

/-- `ResetFromEveryState`: in the middle of a transaction. -/
theorem witness_reset_in_command : (withHost [.reset] inStop).env.host = .reset :: [] ∧ inStop.busy = true := by decide

/-- `AcqReturnsTheFrame`, `FreshIsAcquireThenDecode`, `BusCommandNeedsReady`: both values of `READY`; `InitSetsUpTheBlock`: both
modes. -/
theorem witness_ready_and_modes :
    (fresh .bitbang [] []).ready = false ∧ (readied .bitbang [] []).ready = true ∧ (readied .bitbang [] []).cfg.mode = .bitbang ∧
    (readied .periph [] []).ready = true ∧ (readied .periph [] []).cfg.mode = .periph ∧
    Instr.faultF ∈ [Instr.faultF, .idokF, .tctF, .cjtF] ∧ Instr.acq ∈ [Instr.acq, .faultF, .idokF, .tctF, .cjtF] := by decide

/-- `TransactionEventCounts`, `TransportsAgree`, `SettleBeforeSampling`, `TransactionTakesTime`, `BusCommandFrame`,
`TransactionsAreIndependent`, `ReadAllDecodesOneSample`, `PeriphShiftIsOneTransfer`: a command that uses the bus with `READY = 1`, in each mode. -/
theorem witness_bus_command :
    ∀ m ∈ [Mode.bitbang, Mode.periph], usesBus .tctF = true ∧ (readied m [] []).ready = true ∧ (readied m [] []).cfg.mode = m := by
  decide

/-- `FrameAssembly`: 32 samples, and a position at each end. -/
theorem witness_frame_assembly : (bitsOf 0x015102C1#32).length = 32 ∧ 0 < 32 ∧ 31 < 32 := by decide

/-- `FaultClassifies`, `FaultCodesAreTheFive`: a frame for each of the five clauses. -/
theorem witness_fault_clauses :
    (0x00000007#32).getLsbD 16 = false ∧
    (0x00010007#32).getLsbD 16 = true ∧ (0x00010007#32).getLsbD 2 = true ∧
    (0x00010003#32).getLsbD 16 = true ∧ (0x00010003#32).getLsbD 2 = false ∧ (0x00010003#32).getLsbD 1 = true ∧
    (0x00010001#32).getLsbD 16 = true ∧ (0x00010001#32).getLsbD 2 = false ∧ (0x00010001#32).getLsbD 1 = false ∧
    (0x00010001#32).getLsbD 0 = true ∧
    (0x00010000#32).getLsbD 16 = true ∧ (0x00010000#32).getLsbD 2 = false ∧ (0x00010000#32).getLsbD 1 = false ∧
    (0x00010000#32).getLsbD 0 = false := by decide

/-- `IdokChecksBothBits`, `TctDecodes`, `CjtDecodes`: a frame for each clause. -/
theorem witness_identity_clauses :
    ((0x015002C0#32).getLsbD 17 = false ∧ (0x015002C0#32).getLsbD 3 = false) ∧
    ((0x00020000#32).getLsbD 17 = true ∨ (0x00020000#32).getLsbD 3 = true) ∧
    (faultCode 0x00010000#32 ≠ .ok ∨ identityOk 0x00010000#32 = false) ∧
    (faultCode 0x015002C7#32 = .ok ∧ identityOk 0x015002C7#32 = true) ∧
    identityOk 0x00000008#32 = false ∧ identityOk 0x015102C1#32 = true := by decide

/-- `EveryStepCountIsRead`: the ends of both ranges. -/
theorem witness_step_ranges :
    ((-8192 : Int) ≤ -8192 ∧ (-8192 : Int) ≤ 8191) ∧ ((-8192 : Int) ≤ 8191 ∧ (8191 : Int) ≤ 8191) ∧
    ((-2048 : Int) ≤ -2048 ∧ (-2048 : Int) ≤ 2047) ∧ ((-2048 : Int) ≤ 2047 ∧ (2047 : Int) ≤ 2047) := by decide

/-- `ColdJunctionFieldForms`, `ResultsReadOnlyTheirBits`: two different frames that agree on the bits a result reads, one
pair for each clause. -/
theorem witness_agreeing_frames :
    (∀ k ∈ [16, 2, 1, 0], (0x00010002#32).getLsbD k = (0xFFFDFFFA#32).getLsbD k) ∧
    (∀ k ∈ [17, 3], (0x00020000#32).getLsbD k = (0xFFFFFFF7#32).getLsbD k) ∧
    (∀ k < 32, (16 ≤ k ∧ k ≤ 31) ∨ k = 3 → (0x015002C0#32).getLsbD k = (0x0150FFF7#32).getLsbD k) ∧
    (∀ k < 32, k = 17 ∨ (3 ≤ k ∧ k ≤ 15) → (0x015002C0#32).getLsbD k = (0xFFFD02C7#32).getLsbD k) ∧
    (∀ k < 32, 4 ≤ k → k ≤ 15 → (0x015002C0#32).getLsbD k = (0xFFFF02CF#32).getLsbD k) := by decide

/-- `MarkerIsNoTemperature`: the default marker, and a positive one. -/
theorem witness_marker :
    Cfg.default.MarkerOutside ∧ ({ Cfg.default with errMarker := 0x00002000#32 } : Cfg).MarkerOutside := by decide

/-- `MarkerIsNoTemperature`: an `OK` answer, and `MarkerHasExactlyItsCauses`: a marker. -/
theorem witness_marker_answers :
    responseOf (exec (.tct 0x3E801900#32) (fresh .bitbang [] [])) = some (.ok, 0x00000FA0#32) ∧
    responseOf (exec (.cjt 0x00020000#32) (fresh .bitbang [] [])) = some (.errmark, 0x80000000#32) := by decide

/-- `StuckLineAnswers`: a line for each clause. -/
theorem witness_stuck_lines :
    StuckHigh (readied .bitbang (List.replicate 32 true) []).env ∧ StuckLow (readied .bitbang (List.replicate 32 false) []).env ∧
    (readied .bitbang (List.replicate 32 true) []).ready = true := by
  unfold StuckHigh StuckLow
  decide

/-- `GenuineDeviceAnswers`: the premises, and a `ShortToSupply`. -/
theorem witness_genuine :
    Genuine 0x00010004#32 ∧ FaultConsistent 0x00010004#32 ∧ OneFault 0x00010004#32 ∧
    faultNumber (faultCode 0x00010004#32) = 1#32 := by
  unfold Genuine FaultConsistent OneFault
  decide

/-- `CleanEntryIsKept`, in each mode. -/
theorem witness_clean_entry : CleanEntry (readied .bitbang [] []) ∧ CleanEntry (readied .periph [] []) := by
  unfold CleanEntry
  decide

/-- `ResetMeetsTheInvariant`: a configuration within the constraints that is not the default one. -/
theorem witness_other_cfg : ({ Cfg.default with mode := .periph, tHold := 5000 } : Cfg).WellFormed := by decide

/-- An idle, ready block with its power-up wait behind it meets the invariant. -/
theorem readied_runInv (host : List HostMove) : RunInv (readied .bitbang [] host) where
  cfgWellFormed := by show Cfg.default.WellFormed; decide
  busyIff := by simp [readied, fresh, State.resetWith]
  validNotBusy := by simp [readied, fresh, State.resetWith]
  rspIsLast := by simp [readied, fresh, State.resetWith]
  soInput := rfl
  bitcntRange := by simp [readied, fresh, State.resetWith]
  csLevel := rfl
  sckLow := fun _ => rfl
  sckHigh := by simp [readied, fresh, State.resetWith]
  undriven := by simp [readied]
  driven := fun _ => ⟨rfl, fun _ => rfl⟩
  periphSck := by simp [readied, fresh, State.resetWith]
  pwrupIsInit := by simp [readied, fresh, State.resetWith]
  transactionIsBus := by simp [readied, fresh, State.resetWith, inTransaction]
  pwrupWaited := by simp [readied, fresh, State.resetWith]
  readyWaited := fun _ => ⟨200000000, Nat.le_refl _, by simp [readied]⟩

/-- A block in the middle of a transaction meets it too. -/
theorem inStop_runInv : RunInv inStop where
  cfgWellFormed := by show Cfg.default.WellFormed; decide
  busyIff := by decide
  validNotBusy := by decide
  rspIsLast := by decide
  soInput := by decide
  bitcntRange := by decide
  csLevel := by decide
  sckLow := by decide
  sckHigh := by decide
  undriven := by decide
  driven := by decide
  periphSck := by decide
  pwrupIsInit := by decide
  transactionIsBus := fun _ => ⟨by decide, .acq, by decide, by decide⟩
  pwrupWaited := by decide
  readyWaited := fun _ => ⟨200000000, by decide, by decide⟩

/-- `EveryStepKeepsTheInvariant`, `EveryCommandEnds`: a state in the middle of a command that meets the invariant and steps. -/
theorem witness_inv_step : RunInv inStop ∧ inStop.busy = true ∧ step inStop = .next (tick inStop) := ⟨inStop_runInv, by decide, rfl⟩

/-- `BusyBlockAcceptsNothing`, second part: a step of a busy block that is no reset. -/
theorem witness_busy_step :
    inStop.busy = true ∧ step inStop = .next (tick inStop) ∧ ∀ rest, inStop.env.host ≠ .reset :: rest :=
  ⟨by decide, rfl, by simp [show inStop.env.host = [] from rfl]⟩

/-- `PhaseByPhaseAgrees`, `EndOfRun`: an idle block that meets the invariant, with a command to come. -/
theorem witness_inv_idle :
    RunInv (readied .bitbang [] [.command 0xC00000000#36]) ∧ (readied .bitbang [] [.command 0xC00000000#36]).busy = false ∧
    (readied .bitbang [] [.command 0xC00000000#36]).env.host = .command 0xC00000000#36 :: [] :=
  ⟨readied_runInv _, rfl, rfl⟩

/-- `ConfigurationIsConstant`, and the second part of `OneResponsePerCommand`: a step that is no reset and answers. -/
theorem witness_step_answers : step State.reset = .next State.reset ∧ ∀ rest, State.reset.env.host ≠ .reset :: rest :=
  ⟨rfl, by simp [State.reset, State.resetWith, Env.silent]⟩

/-- `ReadyIsSetByInitClearedByReset`: a step that sets `READY`, and one that clears it. -/
theorem witness_ready_changes :
    (nextOf (step (fresh .bitbang [] [.command 0x000000000#36]))).map State.ready = some true ∧
    (fresh .bitbang [] [.command 0x000000000#36]).ready = false ∧
    (nextOf (step (readied .bitbang [] [.reset]))).map State.ready = some false ∧ (readied .bitbang [] [.reset]).ready = true := by
  decide

/-- `PeriphLeavesClockAndDataAlone`: a step in `PERIPH` mode that is no reset. -/
theorem witness_periph_step :
    (fresh .periph [] [.command 0x000000000#36]).cfg.mode = .periph ∧
    (nextOf (step (fresh .periph [] [.command 0x000000000#36]))).isSome = true ∧
    (∀ rest, (fresh .periph [] [.command 0x000000000#36]).env.host ≠ .reset :: rest) := by
  refine ⟨rfl, by decide, ?_⟩
  simp [fresh, State.resetWith]

/-- `NothingIsKeptBetweenCommands`: two states that agree on `READY`, `CFG` and the environment and differ in the rest. -/
theorem witness_different_pasts :
    (readied .bitbang [] []).ready = (respond (okResponse 7#32) (setPhase .close (clearShift (readied .bitbang [] [])))).ready ∧
    (readied .bitbang [] []).cfg = (respond (okResponse 7#32) (setPhase .close (clearShift (readied .bitbang [] [])))).cfg ∧
    (readied .bitbang [] []).env = (respond (okResponse 7#32) (setPhase .close (clearShift (readied .bitbang [] [])))).env ∧
    (readied .bitbang [] []).rsp = 0#34 ∧
    (respond (okResponse 7#32) (setPhase .close (clearShift (readied .bitbang [] [])))).rsp = 7#34 := by decide

end Sys2Proof.Tests
end

section
/-! PROOFS. The statements of 00_scope.md: the marker, the configuration, the state after reset. -/

namespace Sys2Proof.Machine

/-! ### What a command and a step keep of the configuration -/

@[simp] theorem initLines_cfg (s : State) : (initLines s).cfg = s.cfg := (initLines_spec s).1

@[simp] theorem transaction_cfg (s : State) : (transaction s).cfg = s.cfg := (transaction_spec s).1

theorem exec_cfg {i : Instr} {s t : State} (h : exec i s = .next t) : t.cfg = s.cfg := by
  rw [exec_eq] at h
  obtain rfl := Host.Outcome.next.inj h
  split
  · simp
  · split
    · split <;> simp
    · simp

theorem runCommand_cfg {w : CmdWord} {s t : State} (h : runCommand w s = .next t) : t.cfg = s.cfg := by
  rw [runCommand_eq] at h
  split at h
  · simpa using exec_cfg h
  · obtain rfl := Host.Outcome.next.inj h
    simp

/-- The host's read of the response, when it is no fault, touches the environment alone (10_state.md R17). -/
theorem readResponse_next {s t : State} (h : readResponse s = .next t) :
    t = { s with env := { s.env with reads := s.env.reads ++ [s.rsp] } } := by
  unfold readResponse at h
  split at h
  · exact (Host.Outcome.next.inj h).symm
  · cases h

theorem step_cfg {s t : State} (h : step s = .next t) : t.cfg = s.cfg := by
  obtain ⟨rest, -, e⟩ | ⟨rest, -, e⟩ | ⟨-, -, -, e⟩ | ⟨w, rest, -, -, e⟩ | ⟨-, -, e⟩ := step_cases s <;> rw [e] at h
  case inl =>
    obtain rfl := Host.Outcome.next.inj h
    simp
  case inr.inl =>
    rw [readResponse_next h]
    simp
  case inr.inr.inl =>
    obtain rfl := Host.Outcome.next.inj h
    exact (tick_keeps s).cfg
  case inr.inr.inr.inl => simpa using runCommand_cfg h
  case inr.inr.inr.inr =>
    obtain rfl := Host.Outcome.next.inj h
    rfl

/-! ### Temperature answers -/

/-- Every command answers: `NOT_READY`, or what it gives for some content of `SHREG` (60_exceptions.md R130). -/
theorem exec_answers (i : Instr) (s : State) :
    ∃ t, exec i s = .next t ∧
      (t.rsp = packResponse notReadyResponse ∨ ∃ f, t.rsp = packResponse (answerFor s.cfg i f)) := by
  refine ⟨_, exec_eq i s, ?_⟩
  split
  case isTrue hi =>
    subst hi
    exact .inr ⟨s.shreg, rfl⟩
  case isFalse =>
    split
    · split
      · exact .inr ⟨_, rfl⟩
      · exact .inl rfl
    · exact .inr ⟨_, rfl⟩

/-- The numbers of the 14-bit two's-complement field, in which both temperature fields lie (30_encoding.md R51, R52). -/
def TemperatureRange (v : BitVec 32) : Prop := -8192 ≤ v.toInt ∧ v.toInt ≤ 8191

theorem tcValue_range (f : Frame) : TemperatureRange (tcValue f) := by
  have hlo : -8192 ≤ (tcField f).toInt := BitVec.le_toInt _
  have hhi : (tcField f).toInt < 8192 := BitVec.toInt_lt
  rw [TemperatureRange, tcValue_toInt, tcSteps]
  omega

theorem cjValue_range (f : Frame) : TemperatureRange (cjValue f) := by
  have hlo : -2048 ≤ (cjField f).toInt := BitVec.le_toInt _
  have hhi : (cjField f).toInt < 2048 := BitVec.toInt_lt
  rw [TemperatureRange, cjValue_toInt, cjSteps]
  omega

theorem tctResponse_ok_range (c : Cfg) (f : Frame) (h : (tctResponse c f).status = .ok) :
    TemperatureRange (tctResponse c f).value := by
  obtain ⟨-, e⟩ | ⟨-, -, e⟩ := tctResponse_cases c f <;> rw [e] at h ⊢
  · cases h
  · exact tcValue_range f

theorem cjtResponse_ok_range (c : Cfg) (f : Frame) (h : (cjtResponse c f).status = .ok) :
    TemperatureRange (cjtResponse c f).value := by
  obtain ⟨-, e⟩ | ⟨-, e⟩ := cjtResponse_cases c f <;> rw [e] at h ⊢
  · cases h
  · exact cjValue_range f

/-- An `OK` answer of a temperature command, from whatever frame, is a number of the field's range. -/
theorem answerFor_temperature_range {i : Instr}
    (hi : (∃ f, i = .tct f) ∨ (∃ f, i = .cjt f) ∨ i = .tctF ∨ i = .cjtF) (c : Cfg) (f : Frame)
    (h : (answerFor c i f).status = .ok) : TemperatureRange (answerFor c i f).value := by
  obtain ⟨g, rfl⟩ | ⟨g, rfl⟩ | rfl | rfl := hi
  · exact tctResponse_ok_range c g h
  · exact cjtResponse_ok_range c g h
  · exact tctResponse_ok_range c f h
  · exact cjtResponse_ok_range c f h

theorem TemperatureRange.ne_errMarker {v : BitVec 32} (hv : TemperatureRange v) {c : Cfg} (hc : c.MarkerOutside) :
    v ≠ c.errMarker := by
  rintro rfl
  obtain ⟨hlo, hhi⟩ := hv
  obtain h | h := hc <;> omega

/-! ### The state after reset -/

/-- 10_state.md R24 gives the lines their idle levels, and leaves every clause about a busy or ready block with nothing to
say: `PHASE` is idle and the three flags are 0. -/
theorem resetWith_runInv (c : Cfg) (e : Env) (h : c.WellFormed) : RunInv (State.resetWith c e) where
  cfgWellFormed := h
  busyIff := by simp [State.resetWith]
  validNotBusy := fun _ => rfl
  rspIsLast := fun hv => nomatch hv
  soInput := rfl
  bitcntRange := Nat.zero_le 32
  csLevel := rfl
  sckLow := fun _ => rfl
  sckHigh := fun hp => nomatch hp
  undriven := fun _ _ => ⟨rfl, rfl⟩
  driven := by simp [State.resetWith]
  periphSck := fun _ => rfl
  pwrupIsInit := fun hp => nomatch hp
  transactionIsBus := fun hp => nomatch hp
  pwrupWaited := fun hp => nomatch hp
  readyWaited := fun hr => nomatch hr

theorem defaultCfg_wellFormed : Cfg.default.WellFormed := by decide

end Sys2Proof.Machine

open Sys2Proof Sys2Proof.Machine

/-- Settles O33: an `OK` value lies in the field's range, the marker outside it. -/
theorem markerIsNoTemperature : Obligations.MarkerIsNoTemperature := by
  intro i s hm hi
  obtain ⟨t, he, hr⟩ := exec_answers i s
  refine ⟨t, he, fun hok => ?_⟩
  have hv : TemperatureRange (rspValue t.rsp) := by
    obtain e | ⟨f, e⟩ := hr <;> rw [e, rspStatus_packResponse] at hok
    · cases hok
    · rw [e, rspValue_packResponse]
      exact answerFor_temperature_range hi s.cfg f hok
  exact ⟨hv.ne_errMarker hm, hv⟩

/-- Settles O44, by the cases of a step. -/
theorem configurationIsConstant : Obligations.ConfigurationIsConstant := fun _ _ h => step_cfg h

/-- Settles O42; the model's own strapping is within the constraints of R5. -/
theorem resetMeetsTheInvariant : Obligations.ResetMeetsTheInvariant :=
  ⟨resetWith_runInv, resetWith_runInv _ _ defaultCfg_wellFormed⟩

end

section
/-! PROOFS. The statements of 10_state.md: the invariant of a run, the registers and flags, the pins. -/

namespace Sys2Proof.Machine

/-! ### What a command has done when it is about to respond -/

/-- What `INIT` has done when it is about to respond (40_transaction_engine.md R70). -/
def powerUp (s : State) : State := setReady (wait s.cfg.tPowerup (initLines (setPhase .pwrup s)))

/-- Every command ends in a response, and before it the block has done nothing, run a transaction, or powered up. -/
theorem exec_cases (i : Instr) (s : State) :
    ∃ r x, exec i s = .next (respond r x) ∧
      (x = s ∨ s.ready = true ∧ x = transaction s ∨ i = .init ∧ x = powerUp s) := by
  rw [exec_eq]
  split
  case isTrue hi => exact ⟨okResponse 0#32, powerUp s, by simp [powerUp], .inr (.inr ⟨hi, rfl⟩)⟩
  case isFalse =>
    split
    · split
      case isTrue hr => exact ⟨_, _, rfl, .inr (.inl ⟨hr, rfl⟩)⟩
      case isFalse => exact ⟨_, _, rfl, .inl rfl⟩
    · exact ⟨_, _, rfl, .inl rfl⟩

/-- The same of a command word from its acceptance on; a reserved word does nothing but answer. -/
theorem runCommand_cases (w : CmdWord) (s : State) :
    ∃ r x, runCommand w s = .next (respond r x) ∧
      (x = accept w s ∨ s.ready = true ∧ x = transaction (accept w s) ∨
        decode w = .ok .init ∧ x = powerUp (accept w s)) := by
  rw [runCommand_eq]
  cases hd : decode w with
  | ok i =>
    obtain ⟨r, x, he, hx | hx | ⟨rfl, hx⟩⟩ := exec_cases i (accept w s)
    · exact ⟨r, x, he, .inl hx⟩
    · exact ⟨r, x, he, .inr (.inl hx)⟩
    · exact ⟨r, x, he, .inr (.inr ⟨rfl, hx⟩)⟩
  | error => exact ⟨_, _, rfl, .inl rfl⟩

section
variable (s : State)

theorem initLines_bitbang (h : s.cfg.mode = .bitbang) :
    initLines s = pinWrite .sck .L (pinWrite .cs .H (pinDir .so .input (pinDir .sck .output (pinDir .cs .output s)))) := by
  simp [initLines, h]

theorem initLines_periph (h : s.cfg.mode = .periph) :
    initLines s = log .spiInit (pinWrite .cs .H (pinDir .cs .output s)) := by
  simp [initLines, h]

@[simp] theorem initLines_ready : (initLines s).ready = s.ready := by
  obtain ⟨-, -, -, -, -, -, -, -, hr, -⟩ := initLines_spec s
  exact hr

@[simp] theorem initLines_phase : (initLines s).phase = s.phase := by
  obtain ⟨-, -, -, -, -, -, -, -, -, hp, -⟩ := initLines_spec s
  exact hp

/-- The walk begins an `INIT` with the lines of the one step (40_transaction_engine.md R70). -/
theorem beginInit_eq : beginInit s = startTimer (initLines (setPhase .pwrup s)) := by
  cases h : s.cfg.mode with
  | bitbang => simp [beginInit, initLines_bitbang, h]
  | periph => simp [beginInit, initLines_periph, h]

@[simp] theorem powerUp_cfg : (powerUp s).cfg = s.cfg := by simp [powerUp]

@[simp] theorem powerUp_bitcnt : (powerUp s).bitcnt = s.bitcnt := by
  obtain ⟨-, -, -, -, -, -, hb, -⟩ := initLines_spec (setPhase .pwrup s)
  exact hb

@[simp] theorem powerUp_cs : (powerUp s).cs = { dir := .output, latch := .H } := by
  obtain ⟨-, hcs, -⟩ := initLines_spec (setPhase .pwrup s)
  exact hcs

theorem powerUp_sck_bitbang (h : s.cfg.mode = .bitbang) : (powerUp s).sck = { dir := .output, latch := .L } := by
  obtain ⟨-, -, hsck, -⟩ := initLines_spec (setPhase .pwrup s)
  simpa [powerUp, h] using hsck

theorem powerUp_sck_periph (h : s.cfg.mode = .periph) : (powerUp s).sck = s.sck := by
  obtain ⟨-, -, hsck, -⟩ := initLines_spec (setPhase .pwrup s)
  simpa [powerUp, h] using hsck

theorem powerUp_soDir_bitbang (h : s.cfg.mode = .bitbang) : (powerUp s).soDir = .input := by
  obtain ⟨-, -, -, hso, -⟩ := initLines_spec (setPhase .pwrup s)
  simpa [powerUp, h] using hso

theorem powerUp_soDir_periph (h : s.cfg.mode = .periph) : (powerUp s).soDir = s.soDir := by
  obtain ⟨-, -, -, hso, -⟩ := initLines_spec (setPhase .pwrup s)
  simpa [powerUp, h] using hso

theorem powerUp_trace : (powerUp s).trace = s.trace ++ initEvents s.cfg.mode (s.cfg.tPowerup + s.env.nextDelay) := by
  obtain ⟨-, -, -, -, henv, -, -, -, -, -, htr⟩ := initLines_spec (setPhase .pwrup s)
  simpa [powerUp, henv] using htr (s.cfg.tPowerup + s.env.nextDelay)

@[simp] theorem transaction_cs : (transaction s).cs = { s.cs with latch := .H } := by
  obtain ⟨-, hcs, -⟩ := transaction_spec s
  exact hcs

@[simp] theorem transaction_sck_dir : (transaction s).sck.dir = s.sck.dir := by
  obtain ⟨-, -, hdir, -⟩ := transaction_spec s
  exact hdir

theorem transaction_sck_bitbang (h : s.cfg.mode = .bitbang) : (transaction s).sck = { s.sck with latch := .L } := by
  obtain ⟨-, -, hdir, hL, -⟩ := transaction_spec s
  exact congr (congrArg OutPin.mk hdir) (hL h)

theorem transaction_sck_periph (h : s.cfg.mode = .periph) : (transaction s).sck = s.sck := by
  obtain ⟨-, -, -, -, hP, -⟩ := transaction_spec s
  exact hP h

@[simp] theorem transaction_soDir : (transaction s).soDir = s.soDir := by
  obtain ⟨-, -, -, -, -, hso, -⟩ := transaction_spec s
  exact hso

@[simp] theorem transaction_ready : (transaction s).ready = s.ready := by
  obtain ⟨-, -, -, -, -, -, hr, -⟩ := transaction_spec s
  exact hr

@[simp] theorem transaction_cmdreg : (transaction s).cmdreg = s.cmdreg := by
  obtain ⟨-, -, -, -, -, -, -, -, -, -, -, hc, -⟩ := transaction_spec s
  exact hc

theorem transaction_bitcnt :
    (transaction s).bitcnt = if s.cfg.mode = .bitbang then 32#6 else s.bitcnt := by
  obtain ⟨-, -, -, -, -, -, -, -, -, -, -, -, -, hb, -⟩ := transaction_spec s
  exact hb

theorem transaction_env :
    (transaction s).env = (s.env.popLevels 32).popDelays (if s.cfg.mode = .bitbang then 67 else 2) := by
  obtain ⟨-, -, -, -, -, -, -, -, -, -, -, -, -, -, he, -⟩ := transaction_spec s
  exact he

theorem transaction_events :
    ∃ evs, TransactionEvents s.cfg s.env.frameAhead evs ∧ (transaction s).trace = s.trace ++ evs := by
  obtain ⟨-, -, -, -, -, -, -, -, -, -, -, -, -, -, -, htr⟩ := transaction_spec s
  exact htr

end

/-! ### Everything one move of the sequencer can be -/

/-- The moves of the sequencer, each with what it is taken on (10_state.md R14, 40_transaction_engine.md R70, R72, R80,
R81). -/
inductive Move (s : State) : State → Prop
  | answer (r : Response) : s.phase = .idle ∨ s.phase = .close → Move s (respond r s)
  | startInit : s.phase = .idle → Move s (beginInit s)
  | startTransaction : s.phase = .idle → Move s (beginTransaction s)
  | waits (bound : Nat) : Move s (wait bound s)
  | endInit : s.phase = .pwrup → s.cfg.tPowerup ≤ s.timer → Move s (respond (finalResponse s) (setReady s))
  | settle : s.phase = .stop → Move s (startTimer (pinWrite .cs .H (setPhase .settle s)))
  | opened : s.phase = .settle → Move s (pinWrite .cs .L (setPhase .opened s))
  | beginBitbang : s.phase = .opened → s.cfg.mode = .bitbang → Move s (startTimer (clearShift (setPhase .shift s)))
  | beginPeriph : s.phase = .opened → s.cfg.mode = .periph → Move s (setPhase .shift s)
  | rise : s.phase = .shift → s.cfg.mode = .bitbang → s.bitcnt.toNat < 32 → Move s (startTimer (pinWrite .sck .H s))
  | fall : s.phase = .shift → s.cfg.mode = .bitbang → s.sck.latch = .H →
      Move s (startTimer (takeSample (pinWrite .sck .L s)))
  | endBitbang : s.phase = .shift → s.cfg.mode = .bitbang → s.sck.latch = .L →
      Move s (pinWrite .cs .H (setPhase .close s))
  | endPeriph : s.phase = .shift → s.cfg.mode = .periph →
      Move s (pinWrite .cs .H (setPhase .close (log .spiEnd (spiTransfer32 (log (.spiBegin (spiSettings s.cfg)) s)))))

theorem afterWait_move {bound : Nat} {s go : State} (h : bound ≤ s.timer → Move s go) :
    Move s (afterWait bound s go) := by
  obtain ⟨-, e⟩ | ⟨ht, e⟩ := afterWait_cases bound s go <;> rw [e]
  · exact .waits bound
  · exact h ht

theorem beginCommand_move {s : State} (hp : s.phase = .idle) : Move s (beginCommand s) := by
  unfold beginCommand
  split
  · exact .answer _ (.inl hp)
  · split
    · split
      · exact .startTransaction hp
      · exact .answer _ (.inl hp)
    · split
      · exact .startInit hp
      · exact .answer _ (.inl hp)

theorem tickShift_move {s : State} (hp : s.phase = .shift) (hm : s.cfg.mode = .bitbang) : Move s (tickShift s) := by
  refine afterWait_move fun _ => ?_
  split
  case h_1 hH => exact .fall hp hm hH
  case h_2 hL =>
    split
    case isTrue hb => exact .rise hp hm hb
    case isFalse => exact .endBitbang hp hm hL

theorem tick_move (s : State) : Move s (tick s) := by
  unfold tick
  split
  case h_1 hp => exact beginCommand_move hp
  case h_2 hp => exact afterWait_move (.endInit hp)
  case h_3 hp => exact afterWait_move fun _ => .settle hp
  case h_4 hp => exact afterWait_move fun _ => .opened hp
  case h_5 hp =>
    split
    case h_1 hm => exact .beginBitbang hp hm
    case h_2 hm => exact .beginPeriph hp hm
  case h_6 hp =>
    split
    case h_1 hm => exact tickShift_move hp hm
    case h_2 hm => exact .endPeriph hp hm
  case h_7 hp => exact .answer _ (.inr hp)

/-- Everything a step that answers can be: a reset, a step that leaves the block alone (the response is read, or an idle
block waits), a move of the sequencer, or a whole command. -/
theorem step_next_cases {s t : State} (ht : step s = .next t) :
    (∃ rest, s.env.host = .reset :: rest ∧ t = assertReset (withHost rest s)) ∨
    (∃ e, t = { s with env := e }) ∨
    (s.busy = true ∧ t = tick s) ∨
    (∃ w rest, s.env.host = .command w :: rest ∧ s.busy = false ∧ runCommand w (withHost rest s) = .next t) := by
  obtain ⟨rest, hh, e⟩ | ⟨rest, -, e⟩ | ⟨-, -, hb, e⟩ | ⟨w, rest, hh, hb, e⟩ | ⟨-, -, e⟩ := step_cases s <;> rw [e] at ht
  case inl => exact .inl ⟨rest, hh, (Host.Outcome.next.inj ht).symm⟩
  case inr.inl => exact .inr (.inl ⟨_, readResponse_next (s := withHost rest s) ht⟩)
  case inr.inr.inl => exact .inr (.inr (.inl ⟨hb, (Host.Outcome.next.inj ht).symm⟩))
  case inr.inr.inr.inl => exact .inr (.inr (.inr ⟨w, rest, hh, hb, ht⟩))
  case inr.inr.inr.inr => exact .inr (.inl ⟨s.env, (Host.Outcome.next.inj ht).symm⟩)

/-! ### The invariant -/

/-- The invariant says nothing of the environment. -/
theorem RunInv.withEnv {s : State} (h : RunInv s) (e : Env) : RunInv { s with env := e } :=
  ⟨h.cfgWellFormed, h.busyIff, h.validNotBusy, h.rspIsLast, h.soInput, h.bitcntRange, h.csLevel, h.sckLow, h.sckHigh,
    h.undriven, h.driven, h.periphSck, h.pwrupIsInit, h.transactionIsBus, h.pwrupWaited, h.readyWaited⟩

/-- What a block must meet when it is about to respond, for the invariant to hold after the response: the invariant's
clauses about the lines and the past, with `PHASE` idle and whatever the flags and `RSP` are. -/
structure AtRest (s : State) : Prop where
  cfgWellFormed : s.cfg.WellFormed
  soInput : s.soDir = .input
  bitcntRange : s.bitcnt.toNat ≤ 32
  csHigh : s.cs.latch = .H
  sckLow : s.sck.latch = .L
  undriven : s.ready = false → s.cs.dir = .input ∧ s.sck.dir = .input
  driven : s.ready = true → s.cs.dir = .output ∧ (s.cfg.mode = .bitbang → s.sck.dir = .output)
  periphSck : s.cfg.mode = .periph → s.sck = { dir := .input, latch := .L }
  readyWaited : s.ready = true → ∃ d, s.cfg.tPowerup ≤ d ∧ Event.wait d ∈ s.trace

theorem AtRest.respond_runInv {s : State} (h : AtRest s) (r : Response) : RunInv (respond r s) where
  cfgWellFormed := h.cfgWellFormed
  busyIff := by simp
  validNotBusy := fun hb => nomatch hb
  rspIsLast := by simp
  soInput := h.soInput
  bitcntRange := h.bitcntRange
  csLevel := h.csHigh
  sckLow := fun _ => h.sckLow
  sckHigh := fun hp => nomatch hp
  undriven := fun hr _ => h.undriven hr
  driven := by simpa using h.driven
  periphSck := h.periphSck
  pwrupIsInit := fun hp => nomatch hp
  transactionIsBus := fun hp => nomatch hp
  pwrupWaited := fun hp => nomatch hp
  readyWaited := fun hr =>
    have ⟨d, hd, hw⟩ := h.readyWaited hr
    ⟨d, hd, List.mem_append_left _ hw⟩

/-- A block that waits for a command, or has closed its transaction, is at rest. -/
theorem RunInv.atRest {s : State} (h : RunInv s) (hp : s.phase = .idle ∨ s.phase = .close) : AtRest s where
  cfgWellFormed := h.cfgWellFormed
  soInput := h.soInput
  bitcntRange := h.bitcntRange
  csHigh := by obtain hp | hp := hp <;> rw [h.csLevel, hp] <;> rfl
  sckLow := h.sckLow (by obtain hp | hp := hp <;> rw [hp] <;> decide)
  undriven := by
    intro hr
    obtain hp | hp := hp
    · exact h.undriven hr hp
    · exact absurd (h.transactionIsBus (by rw [hp]; rfl)).1 (by simp [hr])
  driven := fun hr => h.driven (.inl hr)
  periphSck := h.periphSck
  readyWaited := h.readyWaited

theorem AtRest.accept {s : State} (h : AtRest s) (w : CmdWord) : AtRest (accept w s) :=
  ⟨h.cfgWellFormed, h.soInput, h.bitcntRange, h.csHigh, h.sckLow, h.undriven, h.driven, h.periphSck, h.readyWaited⟩

/-- A transaction leaves `cs` high and `sck` low, and no direction changes in it (40_transaction_engine.md R78, R80). -/
theorem AtRest.transaction {s : State} (h : AtRest s) : AtRest (transaction s) where
  cfgWellFormed := by simpa using h.cfgWellFormed
  soInput := by simpa using h.soInput
  bitcntRange := by
    rw [transaction_bitcnt]
    split
    · decide
    · exact h.bitcntRange
  csHigh := by simp
  sckLow := by
    cases hm : s.cfg.mode with
    | bitbang => rw [transaction_sck_bitbang s hm]
    | periph => rw [transaction_sck_periph s hm, h.sckLow]
  undriven := by simpa using h.undriven
  driven := by simpa using h.driven
  periphSck := by
    intro hm
    rw [transaction_cfg] at hm
    rw [transaction_sck_periph s hm, h.periphSck hm]
  readyWaited := by
    intro hr
    obtain ⟨d, hd, hw⟩ := h.readyWaited (by simpa using hr)
    obtain ⟨evs, -, htr⟩ := transaction_events s
    exact ⟨d, by simpa using hd, by rw [htr]; exact List.mem_append_left _ hw⟩

/-- `INIT` drives the lines to their idle levels and waits before it sets `READY` (40_transaction_engine.md R70). -/
theorem AtRest.powerUp {s : State} (h : AtRest s) : AtRest (powerUp s) where
  cfgWellFormed := by simpa using h.cfgWellFormed
  soInput := by
    cases hm : s.cfg.mode with
    | bitbang => exact powerUp_soDir_bitbang s hm
    | periph => rw [powerUp_soDir_periph s hm, h.soInput]
  bitcntRange := by simpa using h.bitcntRange
  csHigh := by simp
  sckLow := by
    cases hm : s.cfg.mode with
    | bitbang => rw [powerUp_sck_bitbang s hm]
    | periph => rw [powerUp_sck_periph s hm, h.sckLow]
  undriven := fun hr => nomatch hr
  driven := fun _ => ⟨by simp, fun hm => by rw [powerUp_sck_bitbang s (by simpa using hm)]⟩
  periphSck := by
    intro hm
    rw [powerUp_cfg] at hm
    rw [powerUp_sck_periph s hm, h.periphSck hm]
  readyWaited := by
    refine fun _ => ⟨s.cfg.tPowerup + s.env.nextDelay, by simp, ?_⟩
    rw [powerUp_trace]
    cases s.cfg.mode <;> simp [initEvents]

/-- A command word that an idle block runs keeps the invariant, reserved or not. -/
theorem runCommand_runInv {w : CmdWord} {s t : State} (h : AtRest s) (he : runCommand w s = .next t) : RunInv t := by
  obtain ⟨r, x, e, hx⟩ := runCommand_cases w s
  obtain rfl := Host.Outcome.next.inj (e.symm.trans he)
  refine AtRest.respond_runInv ?_ r
  obtain rfl | ⟨-, rfl⟩ | ⟨-, rfl⟩ := hx
  · exact h.accept w
  · exact (h.accept w).transaction
  · exact (h.accept w).powerUp

/-- A wait in the middle of a command leaves the pins alone, and leaves its own length in `TIMER` and in the trace. -/
theorem RunInv.wait {s : State} (h : RunInv s) (hb : s.busy = true) (bound : Nat) : RunInv (wait bound s) where
  cfgWellFormed := h.cfgWellFormed
  busyIff := h.busyIff
  validNotBusy := h.validNotBusy
  rspIsLast := fun hv => absurd hv (by simp [h.validNotBusy hb])
  soInput := h.soInput
  bitcntRange := h.bitcntRange
  csLevel := h.csLevel
  sckLow := h.sckLow
  sckHigh := h.sckHigh
  undriven := h.undriven
  driven := h.driven
  periphSck := h.periphSck
  pwrupIsInit := h.pwrupIsInit
  transactionIsBus := h.transactionIsBus
  pwrupWaited := by simp
  readyWaited := fun hr =>
    have ⟨d, hd, hw⟩ := h.readyWaited hr
    ⟨d, hd, List.mem_append_left _ hw⟩

/-- At the end of its power-up wait the block is at rest but for the response. -/
theorem RunInv.setReady_atRest {s : State} (h : RunInv s) (hp : s.phase = .pwrup) (ht : s.cfg.tPowerup ≤ s.timer) :
    AtRest (setReady s) where
  cfgWellFormed := h.cfgWellFormed
  soInput := h.soInput
  bitcntRange := h.bitcntRange
  csHigh := by simp [h.csLevel, hp, csLevelIn]
  sckLow := h.sckLow (by simp [hp])
  undriven := fun hr => nomatch hr
  driven := fun _ => h.driven (.inr (by simp [hp]))
  periphSck := h.periphSck
  readyWaited := fun _ => ⟨s.timer, ht, h.pwrupWaited hp ht⟩

/-- What a move from one phase of a transaction to another, or inside one, does not change. -/
structure StaysInTransaction (s t : State) : Prop where
  before : inTransaction s.phase = true
  after : inTransaction t.phase = true
  busy : t.busy = s.busy
  rspValid : t.rspValid = s.rspValid
  ready : t.ready = s.ready
  cmdreg : t.cmdreg = s.cmdreg
  cfg : t.cfg = s.cfg
  csDir : t.cs.dir = s.cs.dir
  sckDir : t.sck.dir = s.sck.dir
  soDir : t.soDir = s.soDir
  trace : s.trace <+: t.trace

theorem Move.staysInTransaction {s t : State} (m : Move s t) (before : inTransaction s.phase = true)
    (after : inTransaction t.phase = true) : StaysInTransaction s t := by
  cases m with
  | answer | endInit => cases after
  | startInit hp | startTransaction hp => simp [hp, inTransaction] at before
  | waits | settle | opened | beginBitbang | beginPeriph | rise | fall | endBitbang | endPeriph =>
    exact ⟨before, after, rfl, rfl, rfl, rfl, rfl, rfl, rfl, rfl, by simp⟩

/-- Such a move keeps the invariant when the two latches and `BITCNT` come out right for the new phase. -/
theorem RunInv.ofStaysInTransaction {s t : State} (h : RunInv s) (hb : s.busy = true) (m : StaysInTransaction s t)
    (hcs : t.cs.latch = csLevelIn t.phase) (hcnt : t.bitcnt.toNat ≤ 32)
    (hlow : t.phase ≠ .shift → t.sck.latch = .L)
    (hhigh : t.phase = .shift → t.sck.latch = .H → t.bitcnt.toNat < 32)
    (hper : s.cfg.mode = .periph → t.sck = s.sck) : RunInv t := by
  have hbusy : t.busy = true := m.busy.trans hb
  have hvalid : t.rspValid = false := m.rspValid.trans (h.validNotBusy hb)
  have hready : s.ready = true := (h.transactionIsBus m.before).1
  have hphase : t.phase ≠ .idle ∧ t.phase ≠ .pwrup := by
    constructor <;> intro hp <;> simpa [hp, inTransaction] using m.after
  exact {
    cfgWellFormed := by rw [m.cfg]; exact h.cfgWellFormed
    busyIff := ⟨fun _ => hphase.1, fun _ => hbusy⟩
    validNotBusy := fun _ => hvalid
    rspIsLast := by simp [hvalid]
    soInput := m.soDir.trans h.soInput
    bitcntRange := hcnt
    csLevel := hcs
    sckLow := hlow
    sckHigh := hhigh
    undriven := fun _ hp => absurd hp hphase.1
    driven := by
      rw [m.csDir, m.sckDir, m.cfg]
      exact fun _ => h.driven (.inl hready)
    periphSck := by
      intro hm
      rw [m.cfg] at hm
      rw [hper hm, h.periphSck hm]
    pwrupIsInit := fun hp => absurd hp hphase.2
    transactionIsBus := by
      rw [m.ready, m.cmdreg]
      exact fun _ => h.transactionIsBus m.before
    pwrupWaited := fun hp => absurd hp hphase.2
    readyWaited := by
      rw [m.cfg]
      intro _
      obtain ⟨d, hd, hw⟩ := h.readyWaited hready
      exact ⟨d, hd, m.trace.subset hw⟩ }

/-- Every move of a busy block keeps the invariant. -/
theorem Move.runInv {s t : State} (h : RunInv s) (hb : s.busy = true) (m : Move s t) : RunInv t := by
  have hidle : s.phase ≠ .idle := h.busyIff.mp hb
  have stays := m.staysInTransaction
  cases m with
  | answer r hp => exact (h.atRest hp).respond_runInv r
  | startInit hp | startTransaction hp => exact absurd hp hidle
  | waits bound => exact h.wait hb bound
  | endInit hp ht => exact (h.setReady_atRest hp ht).respond_runInv _
  | settle hp | opened hp =>
    have hlow : s.sck.latch = .L := h.sckLow (by simp [hp])
    exact h.ofStaysInTransaction hb (stays (by rw [hp]; rfl) rfl) rfl h.bitcntRange (fun _ => hlow)
      (fun hq => nomatch hq) (fun _ => rfl)
  | beginBitbang hp hm =>
    have hcs : s.cs.latch = .L := by rw [h.csLevel, hp]; rfl
    exact h.ofStaysInTransaction hb (stays (by rw [hp]; rfl) rfl) hcs (Nat.zero_le 32) (fun hq => absurd rfl hq)
      (fun _ _ => Nat.zero_lt_succ 31) (fun _ => rfl)
  | beginPeriph hp hm =>
    have hcs : s.cs.latch = .L := by rw [h.csLevel, hp]; rfl
    exact h.ofStaysInTransaction hb (stays (by rw [hp]; rfl) rfl) hcs h.bitcntRange (fun hq => absurd rfl hq)
      (by simp [h.periphSck hm]) (fun _ => rfl)
  | rise hp hm hcnt =>
    have hin : inTransaction s.phase = true := by rw [hp]; rfl
    exact h.ofStaysInTransaction hb (stays hin hin) h.csLevel h.bitcntRange (fun hq => absurd hp hq)
      (fun _ _ => hcnt) (by simp [hm])
  | fall hp hm hH =>
    have hin : inTransaction s.phase = true := by rw [hp]; rfl
    have hcnt : s.bitcnt.toNat < 32 := h.sckHigh hp hH
    have hnext : (s.bitcnt + 1#6).toNat ≤ 32 := by
      rw [BitVec.toNat_add, BitVec.toNat_ofNat]
      omega
    exact h.ofStaysInTransaction hb (stays hin hin) h.csLevel hnext (fun _ => rfl) (fun _ hq => nomatch hq)
      (by simp [hm])
  | endBitbang hp hm hL =>
    exact h.ofStaysInTransaction hb (stays (by rw [hp]; rfl) rfl) rfl h.bitcntRange (fun _ => hL)
      (fun hq => nomatch hq) (fun _ => rfl)
  | endPeriph hp hm =>
    exact h.ofStaysInTransaction hb (stays (by rw [hp]; rfl) rfl) rfl h.bitcntRange (by simp [h.periphSck hm])
      (fun hq => nomatch hq) (fun _ => rfl)

theorem step_runInv {s t : State} (h : RunInv s) (ht : step s = .next t) : RunInv t := by
  obtain ⟨rest, -, rfl⟩ | ⟨e, rfl⟩ | ⟨hb, rfl⟩ | ⟨w, rest, -, hb, he⟩ := step_next_cases ht
  · exact resetWith_runInv _ _ h.cfgWellFormed
  · exact h.withEnv e
  · exact (tick_move s).runInv h hb
  · have hp : s.phase = .idle := by
      by_contra hp
      simp [h.busyIff.mpr hp] at hb
    have hidle : RunInv (withHost rest s) := h.withEnv _
    exact runCommand_runInv (hidle.atRest (.inl hp)) he

/-! ### Commands: what they change and what they leave -/

theorem Env.popLevels_levels (n : Nat) (e : Env) : (e.popLevels n).levels = e.levels.drop n := by
  induction n generalizing e with
  | zero => rfl
  | succ n ih => simp [Env.popLevels, ih]

/-- A level is drawn from the free ones only where the list is used up. -/
theorem Env.popLevels_freeLevels (n : Nat) (e : Env) :
    (e.popLevels n).freeLevels = e.freeLevels + (n - e.levels.length) := by
  induction n generalizing e with
  | zero => simp [Env.popLevels]
  | succ n ih =>
    rw [Env.popLevels, ih, Env.popLevel_freeLevels, Env.popLevel_levels]
    cases e.levels with
    | nil => simp; omega
    | cons b bs => simp

@[simp] theorem Env.popDelays_levels (n : Nat) (e : Env) : (e.popDelays n).levels = e.levels := by
  induction n generalizing e with
  | zero => rfl
  | succ n ih => simp [Env.popDelays, ih]

@[simp] theorem Env.popDelays_freeLevels (n : Nat) (e : Env) : (e.popDelays n).freeLevels = e.freeLevels := by
  induction n generalizing e with
  | zero => rfl
  | succ n ih => simp [Env.popDelays, ih]

theorem usesBus_of_mem {i : Instr} (h : i ∈ [Instr.acq, .faultF, .idokF, .tctF, .cjtF]) : usesBus i = true := by
  revert i
  decide

/-- A response ends a command in a clean entry when the block is ready and its lines are at their idle levels. -/
theorem cleanEntry_respond {s : State} (r : Response) (hr : s.ready = true)
    (hcs : s.cs = { dir := .output, latch := .H })
    (hsck : s.cfg.mode = .bitbang → s.sck = { dir := .output, latch := .L }) : CleanEntry (respond r s) :=
  ⟨rfl, hr, hcs, hsck⟩

theorem exec_cleanEntry (i : Instr) {s : State} (h : CleanEntry s) :
    ∃ r x, exec i s = .next (respond r x) ∧ CleanEntry (respond r x) := by
  obtain ⟨-, hr, hcs, hsck⟩ := h
  obtain ⟨r, x, he, hx⟩ := exec_cases i s
  refine ⟨r, x, he, ?_⟩
  obtain rfl | ⟨-, rfl⟩ | ⟨-, rfl⟩ := hx
  · exact cleanEntry_respond r hr hcs hsck
  · refine cleanEntry_respond r (by simpa using hr) (by simp [hcs]) fun hm => ?_
    rw [transaction_cfg] at hm
    rw [transaction_sck_bitbang s hm, hsck hm]
  · exact cleanEntry_respond r rfl (powerUp_cs s) fun hm => powerUp_sck_bitbang s (by simpa using hm)

/-! ### The step: where it stops, and what becomes of `READY` -/

theorem step_answers_or_invalidRead (s : State) :
    (∃ t, step s = .next t) ∨
    (step s = .fault .responseNotValid ∧ s.rspValid = false ∧ ∃ rest, s.env.host = .readResponse :: rest) := by
  obtain ⟨rest, -, e⟩ | ⟨rest, hh, e⟩ | ⟨-, -, -, e⟩ | ⟨w, rest, -, -, e⟩ | ⟨-, -, e⟩ := step_cases s
  case inl => exact .inl ⟨_, e⟩
  case inr.inl =>
    cases hv : s.rspValid with
    | false => exact .inr ⟨by simp [e, readResponse, hv], rfl, rest, hh⟩
    | true => exact .inl ⟨_, by rw [e, readResponse, withHost_rspValid, if_pos hv]⟩
  case inr.inr.inl => exact .inl ⟨_, e⟩
  case inr.inr.inr.inl =>
    obtain ⟨r, x, he, -⟩ := runCommand_cases w (withHost rest s)
    exact .inl ⟨_, e.trans he⟩
  case inr.inr.inr.inr => exact .inl ⟨_, e⟩

/-- No move clears `READY`, and the end of the power-up wait alone sets it. -/
theorem Move.ready {s t : State} (m : Move s t) :
    t.ready = s.ready ∨ t.ready = true ∧ s.phase = .pwrup ∧ s.cfg.tPowerup ≤ s.timer := by
  cases m with
  | endInit hp ht => exact .inr ⟨rfl, hp, ht⟩
  | startInit => exact .inl (by simp [beginInit_eq])
  | _ => exact .inl rfl

/-- No command clears `READY`, and `INIT` alone sets it. -/
theorem runCommand_ready {w : CmdWord} {s t : State} (he : runCommand w s = .next t) :
    t.ready = s.ready ∨ t.ready = true ∧ decode w = .ok .init := by
  obtain ⟨r, x, e, hx⟩ := runCommand_cases w s
  obtain rfl := Host.Outcome.next.inj (e.symm.trans he)
  obtain rfl | ⟨-, rfl⟩ | ⟨hd, rfl⟩ := hx
  · exact .inl rfl
  · exact .inl (by simp)
  · exact .inr ⟨rfl, hd⟩

/-- A step that is no reset keeps `READY`, or sets it at the end of an `INIT` (10_state.md R19). -/
theorem step_ready {s t : State} (ht : step s = .next t) (hres : ∀ rest, s.env.host ≠ .reset :: rest) :
    t.ready = s.ready ∨ t.ready = true ∧
      ((∃ w rest, s.env.host = .command w :: rest ∧ s.busy = false ∧ decode w = .ok .init) ∨
        (s.busy = true ∧ s.phase = .pwrup ∧ s.cfg.tPowerup ≤ s.timer)) := by
  obtain ⟨rest, hh, -⟩ | ⟨e, rfl⟩ | ⟨hb, rfl⟩ | ⟨w, rest, hh, hb, he⟩ := step_next_cases ht
  · exact absurd hh (hres rest)
  · exact .inl rfl
  · exact (tick_move s).ready.imp_right fun ⟨hr, hp, htm⟩ => ⟨hr, .inr ⟨hb, hp, htm⟩⟩
  · exact (runCommand_ready he).imp_right fun ⟨hr, hd⟩ => ⟨hr, .inl ⟨w, rest, hh, hb, hd⟩⟩

/-- A busy block that is not reset keeps its command (10_state.md R12). -/
theorem step_busy_cmdreg {s t : State} (hb : s.busy = true) (ht : step s = .next t)
    (hres : ∀ rest, s.env.host ≠ .reset :: rest) : t.cmdreg = s.cmdreg := by
  obtain ⟨rest, hh, -⟩ | ⟨e, rfl⟩ | ⟨-, rfl⟩ | ⟨w, rest, -, hi, -⟩ := step_next_cases ht
  · exact absurd hh (hres rest)
  · rfl
  · exact (tick_keeps s).cmdreg
  · simp [hb] at hi

/-- A busy block goes on with its command when the host presents a word (20_memory.md R33). -/
theorem step_of_busy_command {s : State} {w : CmdWord} {rest : List HostMove} (hb : s.busy = true)
    (hh : s.env.host = .command w :: rest) : step s = .next (tick s) := by
  simp [step, stepHost, hh, hb]

theorem step_of_idle_command {s : State} {w : CmdWord} {rest : List HostMove} (hb : s.busy = false)
    (hh : s.env.host = .command w :: rest) : step s = runCommand w (withHost rest s) := by
  simp [step, stepHost, hh, hb]

theorem step_of_readResponse {s : State} {rest : List HostMove} (hh : s.env.host = .readResponse :: rest) :
    step s = readResponse (withHost rest s) := by
  simp [step, stepHost, hh]

theorem step_of_reset {s : State} {rest : List HostMove} (hh : s.env.host = .reset :: rest) :
    step s = .next (assertReset (withHost rest s)) := by
  simp [step, stepHost, hh]

/-! ### The lines of an idle block -/

/-- With `READY = 1` an idle block drives its lines to their idle levels (10_state.md R22). -/
theorem RunInv.idle_lines {s : State} (h : RunInv s) (hp : s.phase = .idle) (hr : s.ready = true) :
    s.cs.line = some .H ∧ (s.cfg.mode = .bitbang → s.sck.line = some .L) := by
  have hrest := h.atRest (.inl hp)
  obtain ⟨hcs, hsck⟩ := hrest.driven hr
  exact ⟨by simp [OutPin.line, hcs, hrest.csHigh], fun hm => by simp [OutPin.line, hsck hm, hrest.sckLow]⟩

/-- With `READY = 0` it drives neither (10_state.md R24). -/
theorem RunInv.undriven_lines {s : State} (h : RunInv s) (hp : s.phase = .idle) (hr : s.ready = false) :
    s.cs.line = none ∧ s.sck.line = none := by
  obtain ⟨hcs, hsck⟩ := h.undriven hr hp
  simp [OutPin.line, hcs, hsck]

/-! ### Two runs that differ in what earlier commands left (10_state.md R11) -/

/-- Two blocks with the same configuration and environment that have appended the same events to the pasts `a` and `b`. -/
structure InStep (a b : List Event) (s u : State) : Prop where
  cfg : s.cfg = u.cfg
  env : s.env = u.env
  events : ∃ evs, s.trace = a ++ evs ∧ u.trace = b ++ evs

section
variable {a b : List Event} {s u : State}

/-- Both blocks append the same events and draw the same values of the environment. -/
theorem InStep.append {s' u' : State} (h : InStep a b s u) (evs : List Event) (hcfg : s'.cfg = u'.cfg)
    (henv : s'.env = u'.env) (hs : s'.trace = s.trace ++ evs) (hu : u'.trace = u.trace ++ evs) : InStep a b s' u' := by
  obtain ⟨pre, ha, hb⟩ := h.events
  exact ⟨hcfg, henv, pre ++ evs, by rw [hs, ha, List.append_assoc], by rw [hu, hb, List.append_assoc]⟩

theorem InStep.log (h : InStep a b s u) (ev : Event) : InStep a b (log ev s) (log ev u) :=
  h.append [ev] h.cfg h.env rfl rfl

theorem InStep.setPhase (h : InStep a b s u) (p : Phase) : InStep a b (setPhase p s) (setPhase p u) :=
  ⟨h.cfg, h.env, h.events⟩

theorem InStep.clearShift (h : InStep a b s u) : InStep a b (clearShift s) (clearShift u) :=
  ⟨h.cfg, h.env, h.events⟩

theorem InStep.setReady (h : InStep a b s u) : InStep a b (setReady s) (setReady u) :=
  ⟨h.cfg, h.env, h.events⟩

theorem InStep.pinDir (h : InStep a b s u) (p : Line) (d : Dir) : InStep a b (pinDir p d s) (pinDir p d u) := by
  cases p <;> exact h.append [.dir _ d] h.cfg h.env rfl rfl

theorem InStep.pinWrite (h : InStep a b s u) (p : OutLine) (l : Level) :
    InStep a b (pinWrite p l s) (pinWrite p l u) := by
  cases p <;> exact h.append [.pin _ l] h.cfg h.env rfl rfl

theorem InStep.wait (h : InStep a b s u) (bound : Nat) : InStep a b (wait bound s) (wait bound u) := by
  refine h.append [.wait (bound + s.env.nextDelay)] h.cfg ?_ rfl ?_
  · simp [h.env]
  · simp [h.env]

theorem InStep.takeSample (h : InStep a b s u) (hc : s.bitcnt = u.bitcnt) :
    InStep a b (takeSample s) (takeSample u) := by
  refine h.append [.sample s.bitcnt.toNat s.env.nextLevel] h.cfg ?_ rfl ?_
  · simp [h.env]
  · simp [h.env, hc]

theorem InStep.spiTransfer32 (h : InStep a b s u) : InStep a b (spiTransfer32 s) (spiTransfer32 u) := by
  refine h.append [.spiTransfer 32 s.env.frameAhead] h.cfg ?_ rfl ?_
  · simp [h.env]
  · simp [h.env]

theorem InStep.respond (h : InStep a b s u) (r : Response) : InStep a b (respond r s) (respond r u) :=
  h.append [.resp r.status r.value] h.cfg h.env rfl rfl

theorem InStep.bitCell (h : InStep a b s u) (hc : s.bitcnt = u.bitcnt) : InStep a b (bitCell s) (bitCell u) := by
  have rise := (h.pinWrite .sck .H).wait s.cfg.tHalf
  have fall := ((rise.pinWrite .sck .L).takeSample hc).wait s.cfg.tHalf
  simpa [Machine.bitCell, h.cfg] using fall

/-- The samples are numbered by `BITCNT`, on which the two blocks must agree here. -/
theorem InStep.bitCells (n : Nat) (h : InStep a b s u) (hc : s.bitcnt = u.bitcnt) :
    InStep a b (bitCells n s) (bitCells n u) := by
  induction n generalizing s u with
  | zero => exact h
  | succ n ih => exact ih (h.bitCell hc) (by simp [bitCell_eq, hc])

/-- Step 5 clears `BITCNT` before it samples, so what it held before makes no difference. -/
theorem InStep.step5 (h : InStep a b s u) : InStep a b (step5 s) (step5 u) := by
  unfold Machine.step5
  rw [← h.cfg]
  split
  · have start := h.clearShift.wait s.cfg.tHalf
    simpa [shiftBitbang, h.cfg] using start.bitCells 32 rfl
  · have done := ((h.log (.spiBegin (spiSettings s.cfg))).spiTransfer32).log .spiEnd
    simpa [shiftPeriph, h.cfg] using done

theorem InStep.transaction (h : InStep a b s u) : InStep a b (transaction s) (transaction u) := by
  have stopped := ((h.setPhase .stop).pinWrite .cs .L).wait s.cfg.tHold
  have settled := ((stopped.setPhase .settle).pinWrite .cs .H).wait s.cfg.tSettle
  have opened := (settled.setPhase .opened).pinWrite .cs .L
  have shifted := (opened.setPhase .shift).step5
  simpa [Machine.transaction, step1, step2, step3, step4, step6, h.cfg] using (shifted.setPhase .close).pinWrite .cs .H

theorem InStep.initLines (h : InStep a b s u) : InStep a b (initLines s) (initLines u) := by
  cases hm : s.cfg.mode with
  | bitbang =>
    rw [initLines_bitbang s hm, initLines_bitbang u (h.cfg ▸ hm)]
    exact ((((h.pinDir .cs .output).pinDir .sck .output).pinDir .so .input).pinWrite .cs .H).pinWrite .sck .L
  | periph =>
    rw [initLines_periph s hm, initLines_periph u (h.cfg ▸ hm)]
    exact ((h.pinDir .cs .output).pinWrite .cs .H).log .spiInit

theorem InStep.powerUp (h : InStep a b s u) : InStep a b (powerUp s) (powerUp u) := by
  simpa [Machine.powerUp, h.cfg] using ((h.setPhase .pwrup).initLines.wait s.cfg.tPowerup).setReady

end

/-- A command that does not use the bus answers from its operand, not from `SHREG` (41_frame_decoder.md R100). -/
theorem answerFor_of_not_usesBus {i : Instr} (h : usesBus i = false) (c : Cfg) (f g : Frame) :
    answerFor c i f = answerFor c i g := by
  cases i with
  | acq | faultF | idokF | tctF | cjtF => cases h
  | init | fault | idok | tct | cjt => rfl

/-- The same response after the same events, from two states that agree on `READY`, `CFG` and the environment. -/
theorem exec_inStep (i : Instr) {s u : State} (hr : s.ready = u.ready) (hc : s.cfg = u.cfg) (he : s.env = u.env) :
    ∃ r x y, exec i s = .next (respond r x) ∧ exec i u = .next (respond r y) ∧ InStep s.trace u.trace x y := by
  have h : InStep s.trace u.trace s u := ⟨hc, he, [], by simp, by simp⟩
  cases hb : usesBus i with
  | true =>
    have hi : i ≠ .init := by
      rintro rfl
      cases hb
    cases hs : s.ready with
    | true =>
      refine ⟨_, _, _, exec_bus_ready i s hb hs, ?_, h.transaction⟩
      rw [exec_bus_ready i u hb (hr ▸ hs), hc, he]
    | false =>
      have hu : u.ready = false := hr ▸ hs
      exact ⟨notReadyResponse, s, u, by simp [exec_eq, hi, hb, hs], by simp [exec_eq, hi, hb, hu], h⟩
  | false =>
    by_cases hi : i = .init
    · subst hi
      exact ⟨okResponse 0#32, _, _, by simp [exec_eq, powerUp], by simp [exec_eq, powerUp], h.powerUp⟩
    · refine ⟨answerFor s.cfg i s.shreg, s, u, by simp [exec_eq, hi, hb], ?_, h⟩
      rw [answerFor_of_not_usesBus hb s.cfg s.shreg u.shreg, hc]
      simp [exec_eq, hi, hb]

/-! ### `PERIPH` mode -/

/-- Nothing was done to `sck` and `so`: neither changed and no event is one of the other transport (10_state.md R20). -/
structure DrivesCsAlone (s t : State) : Prop where
  sck : t.sck = s.sck
  soDir : t.soDir = s.soDir
  events : ∃ evs, t.trace = s.trace ++ evs ∧ ∀ e ∈ evs, isBitbangOnly e = false

theorem DrivesCsAlone.trans {s t u : State} (h : DrivesCsAlone s t) (k : DrivesCsAlone t u) : DrivesCsAlone s u := by
  obtain ⟨es, hs, hes⟩ := h.events
  obtain ⟨et, ht, het⟩ := k.events
  refine ⟨k.sck.trans h.sck, k.soDir.trans h.soDir, es ++ et, by rw [ht, hs, List.append_assoc], fun e he => ?_⟩
  exact (List.mem_append.mp he).elim (hes e) (het e)

theorem drivesCsAlone_respond (r : Response) (s : State) : DrivesCsAlone s (respond r s) :=
  ⟨rfl, rfl, [.resp r.status r.value], rfl, by simp [isBitbangOnly]⟩

theorem drivesCsAlone_accept (w : CmdWord) (s : State) : DrivesCsAlone s (accept w s) :=
  ⟨rfl, rfl, [], by simp, by simp⟩

theorem drivesCsAlone_powerUp {s : State} (hm : s.cfg.mode = .periph) : DrivesCsAlone s (powerUp s) :=
  ⟨powerUp_sck_periph s hm, powerUp_soDir_periph s hm, _, powerUp_trace s, by simp [hm, initEvents, isBitbangOnly]⟩

/-- The trace of a transaction in `PERIPH` mode is that of its peripheral, with the levels of `cs` and the waits. -/
theorem drivesCsAlone_transaction {s : State} (hm : s.cfg.mode = .periph) : DrivesCsAlone s (transaction s) := by
  obtain ⟨evs, ⟨hold, settle, mid, -, -, hmid, rfl⟩, htr⟩ := transaction_events s
  refine ⟨transaction_sck_periph s hm, transaction_soDir s, _, htr, ?_⟩
  simp only [Step5Events, hm] at hmid
  simp [hmid, openingEvents, periphEvents, isBitbangOnly]

theorem runCommand_drivesCsAlone {w : CmdWord} {s t : State} (hm : s.cfg.mode = .periph)
    (he : runCommand w s = .next t) : DrivesCsAlone s t := by
  obtain ⟨r, x, e, hx⟩ := runCommand_cases w s
  obtain rfl := Host.Outcome.next.inj (e.symm.trans he)
  have ha := drivesCsAlone_accept w s
  refine DrivesCsAlone.trans ?_ (drivesCsAlone_respond r x)
  obtain rfl | ⟨-, rfl⟩ | ⟨-, rfl⟩ := hx
  · exact ha
  · exact ha.trans (drivesCsAlone_transaction hm)
  · exact ha.trans (drivesCsAlone_powerUp hm)

theorem Move.drivesCsAlone {s t : State} (hm : s.cfg.mode = .periph) (m : Move s t) : DrivesCsAlone s t := by
  cases m with
  | answer r => exact drivesCsAlone_respond r s
  | startInit =>
    rw [beginInit_eq, initLines_periph (setPhase .pwrup s) hm]
    exact ⟨rfl, rfl, [.dir .cs .output, .pin .cs .H, .spiInit], by simp, by simp [isBitbangOnly]⟩
  | startTransaction => exact ⟨rfl, rfl, [.pin .cs .L], rfl, by simp [isBitbangOnly]⟩
  | waits => exact ⟨rfl, rfl, _, rfl, by simp [isBitbangOnly]⟩
  | endInit => exact ⟨rfl, rfl, _, rfl, by simp [isBitbangOnly]⟩
  | settle => exact ⟨rfl, rfl, [.pin .cs .H], rfl, by simp [isBitbangOnly]⟩
  | opened => exact ⟨rfl, rfl, [.pin .cs .L], rfl, by simp [isBitbangOnly]⟩
  | beginPeriph => exact ⟨rfl, rfl, [], by simp, by simp⟩
  | endPeriph =>
    exact ⟨rfl, rfl, periphEvents (spiSettings s.cfg) s.env.frameAhead ++ [.pin .cs .H], by simp [periphEvents],
      by simp [periphEvents, isBitbangOnly]⟩
  | beginBitbang _ hb => simp [hm] at hb
  | rise _ hb => simp [hm] at hb
  | fall _ hb => simp [hm] at hb
  | endBitbang _ hb => simp [hm] at hb

theorem step_drivesCsAlone {s t : State} (hm : s.cfg.mode = .periph) (ht : step s = .next t)
    (hres : ∀ rest, s.env.host ≠ .reset :: rest) : DrivesCsAlone s t := by
  obtain ⟨rest, hh, -⟩ | ⟨e, rfl⟩ | ⟨-, rfl⟩ | ⟨w, rest, -, -, he⟩ := step_next_cases ht
  · exact absurd hh (hres rest)
  · exact ⟨rfl, rfl, [], by simp, by simp⟩
  · exact (tick_move s).drivesCsAlone hm
  · obtain ⟨hsck, hso, hev⟩ := runCommand_drivesCsAlone (s := withHost rest s) hm he
    exact ⟨hsck, hso, hev⟩

/-! ### The order of the phases -/

/-- The phase a move goes to follows the one it was taken in, or is that one (40_transaction_engine.md R72). -/
theorem Move.phase {s t : State} (m : Move s t) : t.phase = s.phase ∨ PhaseSuccessor s.phase t.phase := by
  cases m with
  | answer r hp =>
    obtain hp | hp := hp <;> rw [hp]
    · exact .inl rfl
    · exact .inr (by simp [PhaseSuccessor])
  | startInit hp => exact .inr (by simp [beginInit_eq, hp, PhaseSuccessor])
  | startTransaction hp => exact .inr (by simp [beginTransaction, hp, PhaseSuccessor])
  | waits => exact .inl rfl
  | rise => exact .inl rfl
  | fall => exact .inl rfl
  | endInit hp | settle hp | opened hp | beginBitbang hp | beginPeriph hp | endBitbang hp | endPeriph hp =>
    exact .inr (by simp [hp, PhaseSuccessor])

end Sys2Proof.Machine

open Sys2Proof Sys2Proof.Machine

/-- Settles O43, by the cases of a step: a command ends at rest, and every move of the sequencer keeps the invariant. -/
theorem everyStepKeepsTheInvariant : Obligations.EveryStepKeepsTheInvariant := fun _ _ h ht => step_runInv h ht

/-- Settles O9; the word that is still presented stands in the environment, which no move of the sequencer changes. -/
theorem busyBlockAcceptsNothing : Obligations.BusyBlockAcceptsNothing := by
  refine ⟨fun s w rest hb hh => ⟨tick s, step_of_busy_command hb hh, ?_⟩, fun s t => step_busy_cmdreg⟩
  obtain ⟨hcmd, hcfg, hhost, hreads⟩ := tick_keeps s
  exact ⟨hcmd, hhost.trans hh, hcfg, hreads⟩

/-- Settles O40: a transaction uses up 32 levels in either transport, and a response touches none of these fields. -/
theorem busCommandFrame : Obligations.BusCommandFrame := by
  intro i s hi hr
  refine ⟨_, exec_bus_ready i s (usesBus_of_mem hi) hr, ?_⟩
  simp only [respond_cfg, respond_cmdreg, respond_ready, respond_cs, respond_sck, respond_soDir, respond_bitcnt,
    respond_env]
  refine ⟨by simp, by simp, by simpa using hr, by simp, by simp, by simp,
    fun hm => ⟨transaction_sck_periph s hm, by simp [transaction_bitcnt, hm]⟩, ?_⟩
  simp [transaction_env, Env.popLevels_levels, Env.popLevels_freeLevels]

/-- Settles O41: neither a transaction nor `INIT` leaves the lines anywhere but at their idle levels. -/
theorem cleanEntryIsKept : Obligations.CleanEntryIsKept := by
  intro i s h
  obtain ⟨r, x, he, hx⟩ := exec_cleanEntry i h
  exact ⟨respond r x, he, hx, rfl, rfl⟩

/-- Settles O45: a step that is no reset keeps `READY` or sets it. -/
theorem readyIsSetByInitClearedByReset : Obligations.ReadyIsSetByInitClearedByReset := by
  intro s t ht
  by_cases hres : ∃ rest, s.env.host = .reset :: rest
  · refine ⟨fun _ _ => hres, fun _ hr => ?_⟩
    obtain ⟨rest, hh⟩ := hres
    obtain rfl := Host.Outcome.next.inj ((step_of_reset hh).symm.trans ht)
    cases hr
  · have hready := step_ready ht fun rest hh => hres ⟨rest, hh⟩
    refine ⟨fun hs hr => ?_, fun hs hr => ?_⟩
    · obtain h | ⟨h, -⟩ := hready <;> simp [h, hs] at hr
    · obtain h | ⟨-, h⟩ := hready
      · simp [h, hs] at hr
      · exact h

/-- Settles O47: every command and every move of the sequencer answers, so the host's read is left. -/
theorem onlyStopIsAnInvalidRead : Obligations.OnlyStopIsAnInvalidRead := step_answers_or_invalidRead

/-- Settles O48: the command ends in a response, and its last state meets the invariant, which gives the lines. -/
theorem endOfRun : Obligations.EndOfRun := by
  intro s w rest h hb hh
  obtain ⟨r, x, he, -⟩ := runCommand_cases w (withHost rest s)
  have hstep : step s = .next (respond r x) := (step_of_idle_command hb hh).trans he
  have hinv : RunInv (respond r x) := step_runInv h hstep
  exact ⟨_, hstep, rfl, rfl, rfl, hinv.idle_lines rfl, hinv.undriven_lines rfl⟩

/-- Settles O49: the two runs draw the same values of the environment and append the same events. -/
theorem nothingIsKeptBetweenCommands : Obligations.NothingIsKeptBetweenCommands := by
  intro i s u hr hc he
  obtain ⟨r, x, y, hs, hu, h⟩ := exec_inStep i hr hc he
  obtain ⟨evs, hx, hy⟩ := (h.respond r).events
  exact ⟨_, _, evs, hs, hu, rfl, hx, hy⟩

/-- Settles O50, by the cases of a step. -/
theorem periphLeavesClockAndDataAlone : Obligations.PeriphLeavesClockAndDataAlone := by
  intro s t hm ht hres
  obtain ⟨hsck, hso, hev⟩ := step_drivesCsAlone hm ht hres
  exact ⟨hsck, hso, hev⟩

/-- Settles O53, by the moves of the sequencer. -/
theorem phaseWalksForward : Obligations.PhaseWalksForward := fun s _ => (tick_move s).phase

/-- Settles O10: the read looks at `RSP_VALID` and writes the environment alone. -/
theorem responseReadNeedsValid : Obligations.ResponseReadNeedsValid := by
  intro s rest hh
  rw [step_of_readResponse hh]
  exact ⟨fun hv => by simp [readResponse, hv], fun hv => by simp [readResponse, hv, withHost]⟩

/-- Settles O11: reset leaves the same state whatever the block was doing. -/
theorem resetFromEveryState : Obligations.ResetFromEveryState := by
  intro s rest hh
  exact ⟨_, step_of_reset hh, rfl, rfl, rfl, rfl, rfl, rfl, rfl, rfl, rfl, rfl, rfl, rfl⟩

/-- Settles O12: the state after reset is written out, whatever it is strapped to. -/
theorem resetStateIsTheSpecs : Obligations.ResetStateIsTheSpecs :=
  ⟨fun _ _ => ⟨rfl, rfl, rfl, rfl, rfl, rfl, rfl, rfl, rfl⟩, Cfg.default, Env.silent, rfl⟩

end

section
/-! PROOFS. The statements of 20_memory.md: the host ports, the data line, what a device's frame gives. -/

namespace Sys2Proof.Machine

/-! ### Fields that the lines and a transaction leave alone -/

section
variable (s : State)

@[simp] theorem initLines_busy : (initLines s).busy = s.busy := by
  cases hm : s.cfg.mode with
  | bitbang => simp [initLines_bitbang s hm]
  | periph => simp [initLines_periph s hm]

@[simp] theorem initLines_rsp : (initLines s).rsp = s.rsp := by
  cases hm : s.cfg.mode with
  | bitbang => simp [initLines_bitbang s hm]
  | periph => simp [initLines_periph s hm]

@[simp] theorem transaction_rsp : (transaction s).rsp = s.rsp := by
  obtain ⟨-, -, -, -, -, -, -, -, hrsp, -⟩ := transaction_spec s
  exact hrsp

end

/-! ### The end of a command in progress (40_transaction_engine.md R83) -/

/-- How long the wait of the current position lasts at least (10_state.md R14, R16); 0 where the block does not wait. -/
def waitBound (s : State) : Nat :=
  match s.phase with
  | .idle => 0
  | .pwrup => s.cfg.tPowerup
  | .stop => s.cfg.tHold
  | .settle => s.cfg.tSettle
  | .opened => 0
  | .shift =>
    match s.cfg.mode with
    | .bitbang => s.cfg.tHalf
    | .periph => 0
  | .close => 0

/-- How many moves remain at most once the current wait is over. A bit cell takes four, of which two are used up when
`sck` is high (40_transaction_engine.md R80); after the last cell one move closes the transaction and one answers. -/
def movesAfterWait (s : State) : Nat :=
  match s.phase with
  | .idle => 0
  | .pwrup => 1
  | .stop => 135
  | .settle => 133
  | .opened => 132
  | .shift =>
    match s.cfg.mode with
    | .bitbang =>
      match s.sck.latch with
      | .H => 4 * (32 - s.bitcnt.toNat)
      | .L => 4 * (32 - s.bitcnt.toNat) + 2
    | .periph => 2
  | .close => 1

/-- How many moves remain at most until the command in progress has been answered. -/
def movesLeft (s : State) : Nat := (if s.timer < waitBound s then 1 else 0) + movesAfterWait s

theorem movesLeft_le_succ (s : State) : movesLeft s ≤ movesAfterWait s + 1 := by
  unfold movesLeft
  split <;> omega

theorem movesLeft_of_waited {s : State} (h : waitBound s ≤ s.timer) : movesLeft s = movesAfterWait s := by
  simp [movesLeft, Nat.not_lt.mpr h]

theorem movesLeft_of_waiting {s : State} (h : s.timer < waitBound s) : movesLeft s = movesAfterWait s + 1 := by
  simp [movesLeft, h, Nat.add_comm]

theorem movesAfterWait_le (s : State) : movesAfterWait s ≤ 135 := by
  cases hp : s.phase with
  | shift =>
    cases hm : s.cfg.mode with
    | bitbang =>
      cases hl : s.sck.latch <;> simp only [movesAfterWait, hp, hm, hl] <;> omega
    | periph => simp [movesAfterWait, hp, hm]
  | _ => simp [movesAfterWait, hp]

theorem movesLeft_le (s : State) : movesLeft s ≤ 136 :=
  (movesLeft_le_succ s).trans (Nat.succ_le_succ (movesAfterWait_le s))

/-- A command has been answered: `RSP_VALID`, `BUSY` and `PHASE` are as `respond` leaves them (20_memory.md R34). -/
structure Responded (s : State) : Prop where
  busy : s.busy = false
  phase : s.phase = .idle
  rspValid : s.rspValid = true

theorem responded_respond (r : Response) (s : State) : Responded (respond r s) := ⟨rfl, rfl, rfl⟩

/-- From `s` to `t` the command in progress has been answered or has come nearer to its answer. -/
def Nearer (s t : State) : Prop := Responded t ∨ movesLeft t < movesLeft s

/-- One move is enough for a wait, because it lasts at least its bound. -/
theorem nearer_afterWait {s go : State} (hgo : waitBound s ≤ s.timer → Nearer s go) :
    Nearer s (afterWait (waitBound s) s go) := by
  obtain ⟨ht, e⟩ | ⟨ht, e⟩ := afterWait_cases (waitBound s) s go <;> rw [e]
  · have hdone : waitBound (wait (waitBound s) s) ≤ (wait (waitBound s) s).timer := Nat.le_add_right _ _
    have hleft : movesLeft (wait (waitBound s) s) = movesAfterWait s := movesLeft_of_waited hdone
    exact .inr (by rw [hleft, movesLeft_of_waiting ht]; exact Nat.lt_succ_self _)
  · exact hgo ht

/-- Inside step 5 of `BITBANG` mode each edge is one move nearer to the 32nd sample (40_transaction_engine.md R80). -/
theorem nearer_tickShift {s : State} (h : RunInv s) (hp : s.phase = .shift) (hm : s.cfg.mode = .bitbang) :
    Nearer s (tickShift s) := by
  have hbound : waitBound s = s.cfg.tHalf := by simp [waitBound, hp, hm]
  rw [tickShift, ← hbound]
  refine nearer_afterWait fun ht => .inr ?_
  rw [movesLeft_of_waited ht]
  cases hl : s.sck.latch with
  | H =>
    have hcnt : s.bitcnt.toNat < 32 := h.sckHigh hp hl
    have hnext : (s.bitcnt + 1#6).toNat = s.bitcnt.toNat + 1 := by
      rw [BitVec.toNat_add, BitVec.toNat_ofNat]
      omega
    refine (movesLeft_le_succ _).trans_lt ?_
    simp [movesAfterWait, hp, hm, hl, hnext, -BitVec.toNat_add]
    omega
  | L =>
    simp only
    split
    case isTrue =>
      refine (movesLeft_le_succ _).trans_lt ?_
      simp [movesAfterWait, hp, hm, hl]
    case isFalse =>
      rw [movesLeft_of_waited (Nat.zero_le _)]
      simp [movesAfterWait, hp, hm, hl]

/-- Every move of a busy block brings its command nearer to the answer, whatever the line answers and however long the
waits last. -/
theorem nearer_tick {s : State} (h : RunInv s) (hb : s.busy = true) : Nearer s (tick s) := by
  cases hp : s.phase with
  | idle => exact absurd hp (h.busyIff.mp hb)
  | pwrup =>
    have e : tick s = afterWait (waitBound s) s (respond (finalResponse s) (setReady s)) := by
      simp [tick, waitBound, hp]
    rw [e]
    exact nearer_afterWait fun _ => .inl (responded_respond _ _)
  | stop =>
    have e : tick s = afterWait (waitBound s) s (startTimer (pinWrite .cs .H (setPhase .settle s))) := by
      simp [tick, waitBound, hp]
    rw [e]
    refine nearer_afterWait fun ht => .inr ((movesLeft_le_succ _).trans_lt ?_)
    simp [movesLeft_of_waited ht, movesAfterWait, hp]
  | settle =>
    have e : tick s = afterWait (waitBound s) s (pinWrite .cs .L (setPhase .opened s)) := by
      simp [tick, waitBound, hp]
    rw [e]
    refine nearer_afterWait fun ht => .inr ?_
    rw [movesLeft_of_waited ht, movesLeft_of_waited (Nat.zero_le _)]
    simp [movesAfterWait, hp]
  | opened =>
    rw [Nearer, movesLeft_of_waited (s := s) (by simp [waitBound, hp])]
    refine .inr ((movesLeft_le_succ _).trans_lt ?_)
    cases hm : s.cfg.mode with
    | bitbang =>
      cases hl : s.sck.latch <;> simp [tick, hp, hm, hl, movesAfterWait]
    | periph => simp [tick, hp, hm, movesAfterWait]
  | shift =>
    cases hm : s.cfg.mode with
    | bitbang =>
      have e : tick s = tickShift s := by simp [tick, hp, hm]
      rw [e]
      exact nearer_tickShift h hp hm
    | periph =>
      have hclose : (tick s).phase = .close := by simp [tick, hp, hm]
      refine .inr ?_
      rw [movesLeft_of_waited (s := tick s) (by simp [waitBound, hclose]),
        movesLeft_of_waited (s := s) (by simp [waitBound, hp, hm])]
      simp [movesAfterWait, hclose, hp, hm]
  | close =>
    have e : tick s = respond (finalResponse s) s := by simp [tick, hp]
    rw [e]
    exact .inl (responded_respond _ _)

/-- A move answers the command or leaves the block busy with it. -/
theorem Move.responded_or_busy {s t : State} (m : Move s t) : Responded t ∨ t.busy = s.busy := by
  cases m with
  | answer | endInit => exact .inl (responded_respond _ _)
  | startInit => exact .inr (by simp [beginInit_eq])
  | _ => exact .inr rfl

/-- Enough moves answer the command in progress. -/
theorem responded_ticks {n : Nat} {s : State} (h : RunInv s) (hb : s.busy = true) (hn : movesLeft s < n) :
    Responded (ticks n s) := by
  induction n generalizing s with
  | zero => exact absurd hn (Nat.not_lt_zero _)
  | succ n ih =>
    rw [ticks_succ n s hb]
    have hmove : Move s (tick s) := tick_move s
    obtain hr | hbusy := hmove.responded_or_busy
    · rwa [ticks_of_idle n _ hr.busy]
    · obtain hr | hlt := nearer_tick h hb
      · rwa [ticks_of_idle n _ hr.busy]
      · exact ih (hmove.runInv h hb) (hbusy.trans hb) (by omega)

/-! ### Responses in the trace (20_memory.md R34) -/

/-- From `s` to `t` nothing was answered: the new events hold no response and `RSP` is as it was. -/
structure AnswersNothing (s t : State) : Prop where
  rsp : t.rsp = s.rsp
  events : ∃ evs, t.trace = s.trace ++ evs ∧ ∀ e ∈ evs, isResponse e = false

theorem AnswersNothing.of_trace_eq {s t : State} (hrsp : t.rsp = s.rsp) (htr : t.trace = s.trace) :
    AnswersNothing s t :=
  ⟨hrsp, [], by simp [htr], by simp⟩

theorem AnswersNothing.trans {s t u : State} (h : AnswersNothing s t) (k : AnswersNothing t u) : AnswersNothing s u := by
  obtain ⟨es, hs, hes⟩ := h.events
  obtain ⟨et, ht, het⟩ := k.events
  refine ⟨k.rsp.trans h.rsp, es ++ et, by rw [ht, hs, List.append_assoc], fun e he => ?_⟩
  exact (List.mem_append.mp he).elim (hes e) (het e)

theorem cellEvents_noResponse (k : Nat) (cells : List Cell) : ∀ e ∈ cellEvents k cells, isResponse e = false := by
  induction cells generalizing k with
  | nil => simp [cellEvents]
  | cons c cells ih => simpa [cellEvents, isResponse] using ih (k + 1)

theorem step5Events_noResponse {c : Cfg} {f : Frame} {evs : List Event} (h : Step5Events c f evs) :
    ∀ e ∈ evs, isResponse e = false := by
  unfold Step5Events at h
  split at h
  case h_1 =>
    obtain ⟨lead, cells, -, -, -, -, rfl⟩ := h
    simpa [bitbangEvents, isResponse] using cellEvents_noResponse 0 cells
  case h_2 =>
    subst h
    simp [periphEvents, isResponse]

theorem answersNothing_transaction (s : State) : AnswersNothing s (transaction s) := by
  obtain ⟨evs, ⟨hold, settle, mid, -, -, hmid, rfl⟩, htr⟩ := transaction_events s
  refine ⟨transaction_rsp s, _, htr, ?_⟩
  have hcells := step5Events_noResponse hmid
  simp only [List.mem_append]
  rintro e ((he | he) | he)
  · revert e
    simp [openingEvents, isResponse]
  · exact hcells e he
  · obtain rfl := List.mem_singleton.mp he
    rfl

theorem initEvents_noResponse (m : Mode) (d : Nat) : ∀ e ∈ initEvents m d, isResponse e = false := by
  cases m <;> simp [initEvents, isResponse]

theorem answersNothing_powerUp (s : State) : AnswersNothing s (powerUp s) :=
  ⟨by simp [powerUp], _, powerUp_trace s, initEvents_noResponse _ _⟩

/-- A command word that is run ends in one response, after events that are none. -/
theorem runCommand_answersOnce (w : CmdWord) (s : State) :
    ∃ r x, runCommand w s = .next (respond r x) ∧ AnswersNothing s x := by
  obtain ⟨r, x, he, hx⟩ := runCommand_cases w s
  have ha : AnswersNothing s (accept w s) := .of_trace_eq rfl rfl
  refine ⟨r, x, he, ?_⟩
  obtain rfl | ⟨-, rfl⟩ | ⟨-, rfl⟩ := hx
  · exact ha
  · exact ha.trans (answersNothing_transaction _)
  · exact ha.trans (answersNothing_powerUp _)

/-- A move of the sequencer answers nothing, or ends in one response. -/
theorem Move.answersAtMostOnce {s t : State} (m : Move s t) :
    AnswersNothing s t ∨ ∃ r x, t = respond r x ∧ AnswersNothing s x := by
  cases m with
  | answer r => exact .inr ⟨r, s, rfl, .of_trace_eq rfl rfl⟩
  | endInit => exact .inr ⟨_, _, rfl, .of_trace_eq rfl rfl⟩
  | startInit =>
    rw [beginInit_eq]
    cases hm : s.cfg.mode with
    | bitbang =>
      rw [initLines_bitbang (setPhase .pwrup s) hm]
      exact .inl ⟨rfl, [.dir .cs .output, .dir .sck .output, .dir .so .input, .pin .cs .H, .pin .sck .L], by simp,
        by simp [isResponse]⟩
    | periph =>
      rw [initLines_periph (setPhase .pwrup s) hm]
      exact .inl ⟨rfl, [.dir .cs .output, .pin .cs .H, .spiInit], by simp, by simp [isResponse]⟩
  | beginBitbang | beginPeriph => exact .inl (.of_trace_eq rfl rfl)
  | endPeriph =>
    exact .inl ⟨rfl, periphEvents (spiSettings s.cfg) s.env.frameAhead ++ [.pin .cs .H], by simp [periphEvents],
      by simp [periphEvents, isResponse]⟩
  | fall => exact .inl ⟨rfl, [.pin .sck .L, .sample s.bitcnt.toNat s.env.nextLevel], by simp, by simp [isResponse]⟩
  | startTransaction | waits | settle | opened | rise | endBitbang => exact .inl ⟨rfl, [_], rfl, by simp [isResponse]⟩

/-- A step that is no reset answers nothing, or ends in one response. -/
theorem step_answersAtMostOnce {s t : State} (ht : step s = .next t) (hres : ∀ rest, s.env.host ≠ .reset :: rest) :
    AnswersNothing s t ∨ ∃ r x, t = respond r x ∧ AnswersNothing s x := by
  obtain ⟨rest, hh, -⟩ | ⟨e, rfl⟩ | ⟨-, rfl⟩ | ⟨w, rest, -, -, he⟩ := step_next_cases ht
  · exact absurd hh (hres rest)
  · exact .inl (.of_trace_eq rfl rfl)
  · exact (tick_move s).answersAtMostOnce
  · obtain ⟨r, x, e, hx⟩ := runCommand_answersOnce w (withHost rest s)
    exact .inr ⟨r, x, Host.Outcome.next.inj (he.symm.trans e), hx.rsp, hx.events⟩

/-! ### The data line (20_memory.md R37) -/

/-- The bits of a frame in the order in which they cross the line, most significant first (20_memory.md R35). -/
def frameBits (f : Frame) : List Bool := (List.range 32).map f.getMsbD

@[simp] theorem frameBits_length (f : Frame) : (frameBits f).length = 32 := by simp [frameBits]

theorem shiftIn_getLsbD (v : Frame) (b : Bool) {i : Nat} (hi : i < 32) :
    (shiftIn v b).getLsbD i = if i = 0 then b else v.getLsbD (i - 1) := by
  cases i with
  | zero => simp [shiftIn]
  | succ j => simp [shiftIn, hi, BitVec.getLsbD_eq_getElem (show j < 32 by omega)]

/-- The bits shifted in stand at the low end, the last one in bit 0; above them stands what the register held. -/
theorem foldl_shiftIn_getLsbD (bs : List Bool) (v : Frame) {i : Nat} (hi : i < 32) :
    (bs.foldl shiftIn v).getLsbD i =
      if i < bs.length then bs.getD (bs.length - 1 - i) false else v.getLsbD (i - bs.length) := by
  induction bs using List.reverseRecOn generalizing i with
  | nil => simp
  | append_singleton bs b ih =>
    rw [List.foldl_append, List.foldl_cons, List.foldl_nil, shiftIn_getLsbD _ _ hi]
    cases i with
    | zero => simp
    | succ j =>
      rw [if_neg (Nat.succ_ne_zero j), Nat.add_sub_cancel, ih (by omega)]
      have hlen : (bs ++ [b]).length = bs.length + 1 := List.length_append
      by_cases hj : j < bs.length
      · rw [if_pos hj, if_pos (by omega), List.getD_append _ _ _ _ (by omega), hlen,
          show bs.length + 1 - 1 - (j + 1) = bs.length - 1 - j by omega]
      · rw [if_neg hj, if_neg (by omega), hlen, Nat.add_sub_add_right]

theorem assemble_frameBits (f : Frame) : assemble (frameBits f) = f := by
  apply BitVec.eq_of_getLsbD_eq
  intro i hi
  have hbit : (frameBits f).getD (31 - i) false = f.getMsbD (31 - i) := by
    rw [List.getD_eq_getElem _ _ (by rw [frameBits_length]; omega)]
    simp [frameBits]
  have hmsb : f.getLsbD i = f.getMsbD (31 - i) := by
    rw [BitVec.getLsbD_eq_getMsbD, decide_eq_true hi, Bool.true_and]
  rw [assemble, foldl_shiftIn_getLsbD _ _ hi, frameBits_length, if_pos hi, hbit, hmsb]

/-- Levels that the environment lists are the next frame's bits. -/
theorem Env.frameAhead_of_levels {e : Env} {f : Frame} {rest : List Bool} (h : e.levels = frameBits f ++ rest) :
    e.frameAhead = f := by
  have hbits : e.levelsAhead 32 = frameBits f := by simpa using Env.levelsAhead_of_list (frameBits f) e rest h
  rw [Env.frameAhead, hbits, assemble_frameBits]

/-- Two commands in a row that use the bus: each answers for the frame that the line spells for it (42_fresh_forms.md
R125). -/
theorem exec_bus_twice {i j : Instr} (hi : usesBus i = true) (hj : usesBus j = true) {s : State} (hr : s.ready = true)
    {f g : Frame} (hl : s.env.levels = frameBits f ++ frameBits g) :
    ∃ a b, exec i s = .next a ∧ exec j a = .next b ∧ a.rsp = packResponse (answerFor s.cfg i f) ∧
      b.rsp = packResponse (answerFor s.cfg j g) := by
  have hlevels : (transaction s).env.levels = frameBits g ++ [] := by
    simp [transaction_env, Env.popLevels_levels, hl]
  have ha := exec_bus_ready i s hi hr
  have hb := exec_bus_ready j (respond (answerFor s.cfg i s.env.frameAhead) (transaction s)) hj (by simpa using hr)
  refine ⟨_, _, ha, hb, ?_, ?_⟩
  · rw [respond_rsp, Env.frameAhead_of_levels hl]
  · rw [respond_rsp, respond_cfg, transaction_cfg, respond_env, Env.frameAhead_of_levels hlevels]

/-- The response word of a command that uses the bus, from the frame that the line spells. -/
theorem exec_bus_rsp {i : Instr} (hi : usesBus i = true) {s : State} (hr : s.ready = true) {f : Frame}
    (hf : s.env.frameAhead = f) {r : Response} (ha : answerFor s.cfg i f = r) :
    ∃ t, exec i s = .next t ∧ t.rsp = packResponse r :=
  ⟨_, exec_bus_ready i s hi hr, by rw [respond_rsp, hf, ha]⟩

theorem StuckHigh.frameAhead {e : Env} (h : StuckHigh e) : e.frameAhead = 0xFFFFFFFF#32 := by
  rw [Env.frameAhead, h]
  decide

theorem StuckLow.frameAhead {e : Env} (h : StuckLow e) : e.frameAhead = 0#32 := by
  rw [Env.frameAhead, h]
  decide

/-! ### Supplied frames (20_memory.md R38) -/

/-- A supplied decode does nothing but answer (41_frame_decoder.md R100). -/
theorem exec_supplied {i : Instr} (h : isSupplied i = true) (s : State) :
    exec i s = .next (respond (answerFor s.cfg i s.shreg) s) := by
  cases i with
  | fault | idok | tct | cjt => rfl
  | init | acq | faultF | idokF | tctF | cjtF => cases h

theorem tctResponse_eq_marker {c : Cfg} {f : Frame} (h : faultCode f ≠ .ok ∨ identityOk f = false) :
    tctResponse c f = markerResponse c := if_pos h

theorem tctResponse_eq_ok {c : Cfg} {f : Frame} (hf : faultCode f = .ok) (hi : identityOk f = true) :
    tctResponse c f = okResponse (tcValue f) := if_neg (by simp [hf, hi])

theorem cjtResponse_eq_marker {c : Cfg} {f : Frame} (h : identityOk f = false) : cjtResponse c f = markerResponse c :=
  if_pos h

theorem cjtResponse_eq_ok {c : Cfg} {f : Frame} (h : identityOk f = true) : cjtResponse c f = okResponse (cjValue f) :=
  if_neg (by simp [h])

theorem tctResponse_errmark_iff (c : Cfg) (f : Frame) :
    (tctResponse c f).status = .errmark ↔ faultCode f ≠ .ok ∨ identityOk f = false := by
  obtain ⟨h, e⟩ | ⟨hf, hi, e⟩ := tctResponse_cases c f <;> rw [e]
  · exact iff_of_true rfl h
  · exact iff_of_false (fun h => nomatch h) (by simp [hf, hi])

theorem idokResponse_value {f : Frame} (h : identityOk f = true) : (idokResponse f).value = 1#32 :=
  if_pos h

theorem genuine_iff (f : Frame) : Genuine f ↔ identityOk f = true := (identityOk_iff f).symm

theorem faultNumber_eq_zero_iff (c : FaultCode) : faultNumber c = 0#32 ↔ c = .ok := by
  cases c <;> decide

theorem faultNumber_eq_one_iff (c : FaultCode) : faultNumber c = 1#32 ↔ c = .shortToSupply := by
  cases c <;> decide

/-- Short to supply is answered when the fault flag and its own bit are set, before the other two bits are looked at
(41_frame_decoder.md R101). -/
theorem faultCode_eq_shortToSupply_iff (f : Frame) : faultCode f = .shortToSupply ↔ flt f = true ∧ scv f = true := by
  unfold faultCode
  cases flt f with
  | false => simp
  | true =>
    cases scv f with
    | true => simp
    | false => cases scg f <;> cases oc f <;> simp

end Sys2Proof.Machine

open Sys2Proof Sys2Proof.Machine

/-- Settles O36: the line spells the bits of `f` and then those of `g`, and each transaction uses up its own 32. -/
theorem transactionsAreIndependent : Obligations.TransactionsAreIndependent := by
  intro s f g hr
  refine ⟨frameBits f ++ frameBits g, ?_, ?_⟩
  · obtain ⟨a, b, ha, hb, hra, hrb⟩ := exec_bus_twice (i := .acq) (j := .acq) rfl rfl
      (s := { s with env := { s.env with levels := frameBits f ++ frameBits g } }) hr rfl
    exact ⟨a, b, ha, hb, by rw [hra, rspValue_packResponse]; rfl, by rw [hrb, rspValue_packResponse]; rfl⟩
  · exact exec_bus_twice (i := .tctF) (j := .cjtF) rfl rfl
      (s := { s with env := { s.env with levels := frameBits f ++ frameBits g } }) hr rfl

/-- Settles O37: a stuck line spells all ones or all zeros, and each answer is that of this one frame. -/
theorem stuckLineAnswers : Obligations.StuckLineAnswers := by
  refine fun s hr => ⟨fun h => ?_, fun h => ?_⟩
  · have hf := h.frameAhead
    have hid : identityOk 0xFFFFFFFF#32 = false := by decide
    exact ⟨exec_bus_rsp (i := .acq) (r := okResponse 0xFFFFFFFF#32) rfl hr hf rfl,
      exec_bus_rsp (i := .faultF) (r := okResponse 1#32) rfl hr hf rfl,
      exec_bus_rsp (i := .idokF) (r := okResponse 0#32) rfl hr hf rfl,
      exec_bus_rsp (i := .tctF) (r := markerResponse s.cfg) rfl hr hf (tctResponse_eq_marker (.inr hid)),
      exec_bus_rsp (i := .cjtF) (r := markerResponse s.cfg) rfl hr hf (cjtResponse_eq_marker hid)⟩
  · have hf := h.frameAhead
    have hid : identityOk 0#32 = true := by decide
    exact ⟨exec_bus_rsp (i := .acq) (r := okResponse 0#32) rfl hr hf rfl,
      exec_bus_rsp (i := .faultF) (r := okResponse 0#32) rfl hr hf rfl,
      exec_bus_rsp (i := .idokF) (r := okResponse 1#32) rfl hr hf rfl,
      exec_bus_rsp (i := .tctF) (r := okResponse 0#32) rfl hr hf (tctResponse_eq_ok (by decide) hid),
      exec_bus_rsp (i := .cjtF) (r := okResponse 0#32) rfl hr hf (cjtResponse_eq_ok hid)⟩

/-- Settles O46: a step answers nothing or ends in one response, and the step that runs a command word does the latter. -/
theorem oneResponsePerCommand : Obligations.OneResponsePerCommand := by
  refine ⟨fun s w rest hb hh => ?_, fun s t ht hres => ?_⟩
  · obtain ⟨r, x, he, hx⟩ := runCommand_answersOnce w (withHost rest s)
    obtain ⟨evs, htr, hev⟩ := hx.events
    refine ⟨respond r x, evs, r.status, r.value, (step_of_idle_command hb hh).trans he, ?_, hev, rfl, rfl, rfl, rfl⟩
    rw [respond_trace, htr, withHost_trace]
  · obtain ⟨hrsp, evs, htr, -⟩ | ⟨r, x, rfl, -, evs, htr, -⟩ := step_answersAtMostOnce ht hres
    · exact ⟨evs, htr, fun _ => hrsp⟩
    · refine ⟨evs ++ [.resp r.status r.value], by rw [respond_trace, htr, List.append_assoc], fun hnone => ?_⟩
      exact absurd (hnone (.resp r.status r.value) (by simp)) (by simp [isResponse])

/-- Settles O52, from what the fault code and the identity check read of a frame. -/
theorem genuineDeviceAnswers : Obligations.GenuineDeviceAnswers := by
  intro f s
  refine ⟨_, _, _, _, exec_supplied rfl s, exec_supplied rfl s, exec_supplied rfl s, exec_supplied rfl s, ?_, ?_, ?_⟩
  all_goals simp only [respond_rsp, rspValue_packResponse, rspStatus_packResponse, answerFor]
  · intro hg
    have hid : identityOk f = true := (genuine_iff f).mp hg
    refine ⟨idokResponse_value hid, by rw [cjtResponse_eq_ok hid]; rfl, ?_⟩
    rw [tctResponse_errmark_iff, hid, Ne, faultCode_eq_ok_iff, flt]
    simp
  · intro hc
    have hzero : (faultResponse f).value = 0#32 ↔ f.getLsbD 16 = false :=
      (faultNumber_eq_zero_iff _).trans (faultCode_eq_ok_iff f)
    exact hzero.trans ⟨fun h => ⟨h, hc h⟩, fun h => h.1⟩
  · intro h1 hv
    obtain ⟨hflt, hscv⟩ := (faultCode_eq_shortToSupply_iff f).mp ((faultNumber_eq_one_iff _).mp hv)
    rw [← Bool.not_eq_true, ← Bool.not_eq_true, ← not_and_or]
    exact fun ⟨hscg, hoc⟩ => h1 hflt ⟨hscv, hscg, hoc⟩

/-- Settles O55: each move comes nearer to the answer, which is at most 136 moves away. -/
theorem everyCommandEnds : Obligations.EveryCommandEnds := by
  intro s h
  cases hb : s.busy with
  | true =>
    obtain ⟨hbusy, hphase, hvalid⟩ := responded_ticks h hb (Nat.lt_succ_of_le (movesLeft_le s))
    exact ⟨hbusy, hphase, fun _ => hvalid⟩
  | false =>
    have hp : s.phase = .idle := by
      by_contra hp
      simp [h.busyIff.mpr hp] at hb
    rw [ticks_of_idle 137 s hb]
    exact ⟨hb, hp, fun hb' => nomatch hb'⟩

/-- Settles O6: the state after the acceptance is written out. -/
theorem stepRunsDecodedCommand : Obligations.StepRunsDecodedCommand := by
  intro s w rest i hb hh hd
  rw [step_of_idle_command hb hh, runCommand_eq, hd]
  rfl

/-- Settles O8: with no move of the host a step looks at `BUSY` alone. -/
theorem idleBlockWaits : Obligations.IdleBlockWaits := by
  intro s hb hh
  simp [step, stepHost, hb, hh]


end

section
/-! PROOFS. The statements of 30_encoding.md: the command word, a reserved word, the frame and its fields, and what the
answers are made of. -/

namespace Sys2Proof

/-! ### The command word -/

/-- The command with `x` in the place of its operand; a command that ignores its operand stays as it is
(30_encoding.md R55). -/
def Instr.withOperand (i : Instr) (x : Frame) : Instr :=
  match i with
  | .fault _ => .fault x
  | .idok _ => .idok x
  | .tct _ => .tct x
  | .cjt _ => .cjt x
  | .init => .init
  | .acq => .acq
  | .faultF => .faultF
  | .idokF => .idokF
  | .tctF => .tctF
  | .cjtF => .cjtF

@[simp] theorem Instr.selector_withOperand (i : Instr) (x : Frame) : (i.withOperand x).selector = i.selector := by
  cases i <;> rfl

@[simp] theorem Instr.isSupplied_withOperand (i : Instr) (x : Frame) :
    Machine.isSupplied (i.withOperand x) = Machine.isSupplied i := by
  cases i <;> rfl

@[simp] theorem Instr.withOperand_operand (i : Instr) : i.withOperand i.operand = i := by
  cases i <;> rfl

/-- The operand field of a command's canonical word, once `x` has been put there (30_encoding.md R55, R64). -/
theorem Instr.operand_withOperand (i : Instr) (x : Frame) :
    (i.withOperand x).operand = if Machine.isSupplied i then x else 0#32 := by
  cases i <;> rfl

/-- A word with the selector of a command is that command, with the word's operand (30_encoding.md R55, R56). -/
theorem decode_selector_append (i : Instr) (x : Frame) : decode (i.selector ++ x) = .ok (i.withOperand x) := by
  unfold decode
  rw [selector_append, frameIn_append]
  cases i <;> rfl

theorem decode_encode (i : Instr) : decode (encode i) = .ok i := by
  rw [encode, decode_selector_append, Instr.withOperand_operand]

theorem legalSelectors_eq_map_selector :
    legalSelectors = ([.init, .acq, .fault 0#32, .idok 0#32, .tct 0#32, .cjt 0#32, .faultF, .idokF, .tctF, .cjtF] :
      List Instr).map Instr.selector := rfl

theorem mem_legalSelectors_of_not_mem_reserved :
    ∀ sel : BitVec 4, sel ∉ reservedSelectors → sel ∈ legalSelectors := by decide

/-- Every selector that is not reserved is the selector of a command (30_encoding.md R56, R60). -/
theorem exists_selector_eq {sel : BitVec 4} (h : sel ∉ reservedSelectors) : ∃ i : Instr, i.selector = sel := by
  have hl := mem_legalSelectors_of_not_mem_reserved sel h
  rw [legalSelectors_eq_map_selector] at hl
  obtain ⟨i, -, hi⟩ := List.mem_map.mp hl
  exact ⟨i, hi⟩

theorem decode_of_reserved {w : CmdWord} (h : w.selector ∈ reservedSelectors) :
    decode w = .error (.reserved w.selector) := by
  unfold decode
  generalize w.selector = sel at h ⊢
  simp only [reservedSelectors, List.mem_cons, List.not_mem_nil, or_false] at h
  obtain rfl | rfl | rfl | rfl | rfl | rfl := h <;> rfl

theorem decode_of_not_reserved {w : CmdWord} (h : w.selector ∉ reservedSelectors) :
    ∃ i : Instr, i.selector = w.selector ∧ decode w = .ok (i.withOperand w.frameIn) := by
  obtain ⟨i, hi⟩ := exists_selector_eq h
  refine ⟨i, hi, ?_⟩
  rw [← decode_selector_append, hi]
  exact congrArg decode (eq_append w)

end Sys2Proof

namespace Sys2Proof.Machine

/-! ### Accepted words -/

/-- A command's own word, from its acceptance on. -/
theorem runCommand_encode (i : Instr) (s : State) : runCommand (encode i) s = exec i (accept (encode i) s) := by
  rw [runCommand_eq, decode_encode]

/-- What an idle block has written once it has accepted a word and done nothing but answer it: `BUSY` and `PHASE` are back
where they were (20_memory.md R33, R34). -/
theorem respond_accept_withHost {s : State} (hb : s.busy = false) (hp : s.phase = .idle) (r : Response) (w : CmdWord)
    (rest : List HostMove) :
    respond r (accept w (withHost rest s)) = { s with
      cmdreg := w
      rsp := statusCode r.status ++ r.value
      rspValid := true
      trace := s.trace ++ [.resp r.status r.value]
      env := { s.env with host := rest } } := by
  rw [hb, hp]
  rfl

/-! ### The bits of a frame -/

/-- The number that bits spell, first bit most significant (30_encoding.md R63). -/
def bitSum (bs : List Bool) : Nat :=
  ((List.range bs.length).map fun k => (bs.getD k false).toNat * 2 ^ (bs.length - 1 - k)).sum

theorem bitSum_cons (b : Bool) (bs : List Bool) : bitSum (b :: bs) = b.toNat * 2 ^ bs.length + bitSum bs := by
  simp [bitSum, List.range_succ_eq_map, Function.comp_def, Nat.sub_sub, Nat.add_comm]

theorem shiftIn_eq_shiftConcat (v : Frame) (b : Bool) : shiftIn v b = v.shiftConcat b := by
  apply BitVec.eq_of_getLsbD_eq
  intro i hi
  rw [shiftIn_getLsbD v b hi, BitVec.getLsbD_shiftConcat, decide_eq_true hi, Bool.true_and]

/-- A register of `m` significant bits that takes in no more than fit loses none. -/
theorem foldl_shiftIn_toNat (bs : List Bool) {v : Frame} {m : Nat} (hv : v.toNat < 2 ^ m) (hm : m + bs.length ≤ 32) :
    (bs.foldl shiftIn v).toNat = v.toNat * 2 ^ bs.length + bitSum bs := by
  induction bs generalizing v m with
  | nil => simp [bitSum]
  | cons b bs ih =>
    rw [List.length_cons] at hm
    have hb := Bool.toNat_le b
    have hnext : (shiftIn v b).toNat = v.toNat * 2 + b.toNat := by
      rw [shiftIn_eq_shiftConcat, BitVec.toNat_shiftConcat_eq_of_lt (by omega) hv]
    rw [List.foldl_cons, ih (m := m + 1) (by omega) (by omega), hnext, bitSum_cons, List.length_cons]
    ring

/-! ### The fields of a frame -/

theorem faultCode_of_scg {f : Frame} (hflt : flt f = true) (hscv : scv f = false) (hscg : scg f = true) :
    faultCode f = .shortToGround := by
  simp [faultCode, hflt, hscv, hscg]

theorem faultCode_of_oc {f : Frame} (hflt : flt f = true) (hscv : scv f = false) (hscg : scg f = false)
    (hoc : oc f = true) : faultCode f = .openCircuit := by
  simp [faultCode, hflt, hscv, hscg, hoc]

theorem faultCode_of_no_specific {f : Frame} (hflt : flt f = true) (hscv : scv f = false) (hscg : scg f = false)
    (hoc : oc f = false) : faultCode f = .unknown := by
  simp [faultCode, hflt, hscv, hscg, hoc]

theorem faultNumber_toNat_le (c : FaultCode) : (faultNumber c).toNat ≤ 4 := by
  cases c <;> decide

/-- `D31` is the sign bit of the thermocouple field (30_encoding.md R51). -/
theorem tcField_msb (f : Frame) : (tcField f).msb = f.getLsbD 31 := by
  simp [BitVec.msb_eq_getLsbD_last, tcField]

/-- `D15` is the sign bit of the cold-junction field (30_encoding.md R52). -/
theorem cjField_msb (f : Frame) : (cjField f).msb = f.getLsbD 15 := by
  simp [BitVec.msb_eq_getLsbD_last, cjField]

theorem tcSteps_neg_iff (f : Frame) : tcSteps f < 0 ↔ f.getLsbD 31 = true := by
  rw [tcSteps, ← tcField_msb, BitVec.msb_eq_toInt, decide_eq_true_iff]

theorem cjSteps_neg_iff (f : Frame) : cjSteps f < 0 ↔ f.getLsbD 15 = true := by
  rw [cjSteps, ← cjField_msb, BitVec.msb_eq_toInt, decide_eq_true_iff]

/-- The thermocouple field stands at the top of the frame, so a shift that keeps the frame's sign keeps the field's. -/
theorem tcValue_eq_sshiftRight (f : Frame) : tcValue f = f.sshiftRight 18 := by
  ext i hi
  rw [tcValue, BitVec.getElem_signExtend, BitVec.getElem_sshiftRight, tcField_msb, BitVec.msb_eq_getLsbD_last]
  by_cases h : i < 14
  · rw [dif_pos h, dif_pos (by omega)]
    simp [tcField, BitVec.getLsbD_eq_getElem (show 18 + i < 32 by omega)]
  · rw [dif_neg h, dif_neg (by omega)]

theorem extractLsb'_ushiftRight_eq_tcField (f : Frame) : (f >>> 18).extractLsb' 0 14 = tcField f := by
  ext i hi
  simp [tcField]

/-- The source's recipe gives the cold-junction field as an unsigned number (30_encoding.md R52). -/
theorem cjField_toNat (f : Frame) : (cjField f).toNat = ((f &&& 0xFFFF#32) >>> 4).toNat := by
  have hmask : f.toNat &&& 65535 = f.toNat % 65536 := Nat.and_two_pow_sub_one_eq_mod f.toNat 16
  simp only [cjField, BitVec.extractLsb'_toNat, BitVec.toNat_ushiftRight, BitVec.toNat_and, BitVec.toNat_ofNat,
    Nat.reduceMod, Nat.reducePow, hmask, Nat.shiftRight_eq_div_pow]
  omega

theorem cjSteps_eq_recipe (f : Frame) :
    cjSteps f = if ((f &&& 0xFFFF#32) >>> 4).toNat < 2048 then (((f &&& 0xFFFF#32) >>> 4).toNat : Int)
      else (((f &&& 0xFFFF#32) >>> 4).toNat : Int) - 4096 := by
  rw [cjSteps, BitVec.toInt_eq_toNat_cond, cjField_toNat]
  exact if_congr (by omega) rfl rfl

theorem cjField_congr {f g : Frame} (h : ∀ k, 4 ≤ k → k ≤ 15 → f.getLsbD k = g.getLsbD k) : cjField f = cjField g := by
  apply BitVec.eq_of_getLsbD_eq
  intro i hi
  simp only [cjField, BitVec.getLsbD_extractLsb', h (4 + i) (by omega) (by omega)]

theorem tcSteps_range (f : Frame) : -8192 ≤ tcSteps f ∧ tcSteps f ≤ 8191 :=
  ⟨BitVec.le_toInt _, Int.le_of_lt_add_one BitVec.toInt_lt⟩

theorem cjSteps_range (f : Frame) : -2048 ≤ cjSteps f ∧ cjSteps f ≤ 2047 :=
  ⟨BitVec.le_toInt _, Int.le_of_lt_add_one BitVec.toInt_lt⟩

theorem tcDegrees_tcValue (f : Frame) : tcDegrees (tcValue f) = (tcSteps f : Rat) * (1 / 4) := by
  rw [tcDegrees, tcValue_toInt, div_eq_mul_one_div]

theorem cjDegrees_cjValue (f : Frame) : cjDegrees (cjValue f) = (cjSteps f : Rat) * (1 / 16) := by
  rw [cjDegrees, cjValue_toInt, div_eq_mul_one_div]

/-! ### Answers -/

/-- A command that needs the bus, with `READY = 0` (60_exceptions.md R133). -/
theorem exec_bus_not_ready {i : Instr} (h : usesBus i = true) {s : State} (hr : s.ready = false) :
    exec i s = .next (respond notReadyResponse s) := by
  rw [exec_eq, if_neg (by rintro rfl; cases h), h, hr]
  rfl

/-- Every command answers: `NOT_READY`, or what it gives for the frame that the line spells (60_exceptions.md R130). -/
theorem exec_answers_frameAhead (i : Instr) (s : State) :
    ∃ t, exec i s = .next t ∧
      (t.rsp = packResponse notReadyResponse ∨ t.rsp = packResponse (answerFor s.cfg i s.env.frameAhead)) := by
  cases hb : usesBus i with
  | true =>
    cases hr : s.ready with
    | true => exact ⟨_, exec_bus_ready i s hb hr, .inr rfl⟩
    | false => exact ⟨_, exec_bus_not_ready hb hr, .inl rfl⟩
  | false =>
    rw [answerFor_of_not_usesBus hb s.cfg s.env.frameAhead s.shreg]
    refine ⟨_, exec_eq i s, .inr ?_⟩
    split
    case isTrue hi => rw [hi]; rfl
    case isFalse => rw [hb]; rfl

theorem idokResponse_value_eq (f : Frame) :
    (idokResponse f).value = if f.getLsbD 17 = false ∧ f.getLsbD 3 = false then 1#32 else 0#32 :=
  if_congr (identityOk_iff f) rfl rfl

theorem tctResponse_value_of_ok {c : Cfg} {f : Frame} (h : (tctResponse c f).status = .ok) :
    (tctResponse c f).value = tcValue f := by
  obtain ⟨-, e⟩ | ⟨-, -, e⟩ := tctResponse_cases c f <;> rw [e] at h ⊢
  · cases h
  · rfl

theorem cjtResponse_value_of_ok {c : Cfg} {f : Frame} (h : (cjtResponse c f).status = .ok) :
    (cjtResponse c f).value = cjValue f := by
  obtain ⟨-, e⟩ | ⟨-, e⟩ := cjtResponse_cases c f <;> rw [e] at h ⊢
  · cases h
  · rfl

/-- A supplied decode's own word is answered for its operand, whatever the block holds. -/
theorem runCommand_encode_supplied {i : Instr} (h : isSupplied i = true) (s : State) :
    runCommand (encode i) s = .next (respond (answerFor s.cfg i s.shreg) (accept (encode i) s)) := by
  rw [runCommand_encode, exec_supplied h]
  rfl

/-- `READALL` goes on from an `ACQ` that answered `OK` with `r` (30_encoding.md R65). -/
theorem readAll_of_acq_ok {s a : State} {r : Frame} (ha : runCommand (encode .acq) s = .next a)
    (hr : a.rsp = packResponse (okResponse r)) :
    ∃ t, readAll s = .next t ∧ t.trace = a.trace ++
      [.resp (faultResponse r).status (faultResponse r).value, .resp (idokResponse r).status (idokResponse r).value,
       .resp (tctResponse a.cfg r).status (tctResponse a.cfg r).value,
       .resp (cjtResponse a.cfg r).status (cjtResponse a.cfg r).value] := by
  simp only [readAll, ha, andThen, hr, rspStatus_packResponse, rspValue_packResponse, okResponse, reduceCtorEq, if_false,
    runCommand_encode_supplied (i := .fault r) rfl, runCommand_encode_supplied (i := .idok r) rfl,
    runCommand_encode_supplied (i := .tct r) rfl, runCommand_encode_supplied (i := .cjt r) rfl]
  exact ⟨_, rfl, by simp [answerFor]⟩

theorem readAll_of_acq_not_ready {s a : State} (ha : runCommand (encode .acq) s = .next a)
    (hr : a.rsp = packResponse notReadyResponse) : readAll s = .next a := by
  simp [readAll, andThen, ha, hr, notReadyResponse]

end Sys2Proof.Machine

open Sys2Proof Sys2Proof.Machine

/-- Settles O1: the decoder reads back the selector and the operand that the encoder wrote. -/
theorem decodeEncodeRoundTrip : Obligations.DecodeEncodeRoundTrip := fun i _ => decode_encode i

/-- Settles O2: a word is its selector and its operand, and the encoder writes both again or clears the operand. -/
theorem encodeDecodeRoundTrip : Obligations.EncodeDecodeRoundTrip := by
  intro w i h
  by_cases hr : w.selector ∈ reservedSelectors
  · rw [decode_of_reserved hr] at h
    cases h
  · obtain ⟨j, hj, hd⟩ := decode_of_not_reserved hr
    obtain rfl := Except.ok.inj (hd.symm.trans h)
    rw [encode, Instr.selector_withOperand, Instr.operand_withOperand, Instr.isSupplied_withOperand, hj]
    split
    · exact (eq_append w).symm
    · calc (w.selector ++ 0#32 : CmdWord)
        _ = (w.selector ++ w.frameIn : CmdWord) &&& rowMask := (append_and_rowMask _ _).symm
        _ = w &&& rowMask := congrArg (· &&& rowMask) (eq_append w).symm

/-- Settles O3: a selector is reserved or that of a command, and the decoder goes by the selector. -/
theorem decodeRefusesExactlyReserved : Obligations.DecodeRefusesExactlyReserved := by
  refine fun w => ⟨fun h => decode_of_reserved h, fun h => ?_⟩
  obtain ⟨i, hi, hd⟩ := decode_of_not_reserved (w := w) h
  exact ⟨_, hd, by rw [Instr.selector_withOperand, hi]; rfl⟩

/-- Settles O4: each of the ten selectors is that of a command, and the decoder gives this command the word's operand. -/
theorem operandTakenAsItStandsOrIgnored : Obligations.OperandTakenAsItStandsOrIgnored := fun x =>
  ⟨decode_selector_append (.fault x) x, decode_selector_append (.idok x) x, decode_selector_append (.tct x) x,
    decode_selector_append (.cjt x) x, decode_selector_append .init x, decode_selector_append .acq x,
    decode_selector_append .faultF x, decode_selector_append .idokF x, decode_selector_append .tctF x,
    decode_selector_append .cjtF x⟩

/-- Settles O7: the decoder refuses the word, so the block does nothing between its acceptance and the response. -/
theorem reservedWordAnswersIllegal : Obligations.ReservedWordAnswersIllegal := by
  intro s w rest hb hp hh hr
  rw [step_of_idle_command hb hh, runCommand_eq, decode_of_reserved hr]
  exact congrArg Host.Outcome.next (respond_accept_withHost hb hp illegalResponse w rest)

/-- Settles O19: each shift moves the register up by one bit, and 32 of them move its old content out. -/
theorem frameAssembly : Obligations.FrameAssembly := by
  refine fun bs hlen => ⟨fun k hk => ?_, ?_, fun v => ?_⟩
  · rw [assemble, foldl_shiftIn_getLsbD bs _ (by omega), if_pos (by omega), hlen, show 32 - 1 - (31 - k) = k by omega]
  · have h := foldl_shiftIn_toNat bs (v := 0#32) (m := 0) (by decide) (by omega)
    simpa [assemble, bitSum, hlen] using h
  · apply BitVec.eq_of_getLsbD_eq
    intro i hi
    show (bs.foldl shiftIn v).getLsbD i = (bs.foldl shiftIn 0#32).getLsbD i
    rw [foldl_shiftIn_getLsbD bs v hi, foldl_shiftIn_getLsbD bs _ hi, if_pos (by omega), if_pos (by omega)]

/-- Settles O27, by the order of the tests. -/
theorem faultCodesAreTheFive : Obligations.FaultCodesAreTheFive := fun f =>
  ⟨(faultCode_eq_ok_iff f).mpr, (faultCode_eq_shortToSupply_iff f).mpr,
    fun ⟨hflt, hscv, hscg⟩ => faultCode_of_scg hflt hscv hscg,
    fun ⟨hflt, hscv, hscg, hoc⟩ => faultCode_of_oc hflt hscv hscg hoc,
    fun ⟨hflt, hscv, hscg, hoc⟩ => faultCode_of_no_specific hflt hscv hscg hoc,
    rfl, rfl, rfl, rfl, rfl, faultNumber_toNat_le (faultCode f)⟩

/-- Settles O28: each form is the field, sign-extended, and sign extension keeps its number. -/
theorem thermocoupleFieldForms : Obligations.ThermocoupleFieldForms := by
  intro f
  obtain ⟨hlo, hhi⟩ := tcSteps_range f
  have hlo' : (-8192 : Rat) ≤ tcSteps f := by exact_mod_cast hlo
  have hhi' : (tcSteps f : Rat) ≤ 8191 := by exact_mod_cast hhi
  refine ⟨rfl, ?_, ?_, hlo, hhi, (tcSteps_neg_iff f).symm, tcDegrees_tcValue f, ?_, ?_⟩
  · rw [← tcValue_eq_sshiftRight, tcValue_toInt]
  · rw [extractLsb'_ushiftRight_eq_tcField]
    exact (tcValue_toInt f).symm
  · rw [tcDegrees_tcValue]
    linarith
  · rw [tcDegrees_tcValue]
    linarith

/-- Settles O29: the recipe computes the field as an unsigned number, from which the two's-complement one follows. -/
theorem coldJunctionFieldForms : Obligations.ColdJunctionFieldForms := by
  intro f
  obtain ⟨hlo, hhi⟩ := cjSteps_range f
  have hlo' : (-2048 : Rat) ≤ cjSteps f := by exact_mod_cast hlo
  have hhi' : (cjSteps f : Rat) ≤ 2047 := by exact_mod_cast hhi
  refine ⟨rfl, cjSteps_eq_recipe f, fun g h => ?_, hlo, hhi, (cjSteps_neg_iff f).symm, cjDegrees_cjValue f, ?_, ?_⟩
  · rw [cjSteps, cjSteps, cjField_congr h]
  · rw [cjDegrees_cjValue]
    linarith
  · rw [cjDegrees_cjValue]
    linarith

/-- Settles O38, by the commands: `OK` is no `NOT_READY`, so the value is that of the answer for the frame. -/
theorem valueByCommand : Obligations.ValueByCommand := by
  intro i s
  obtain ⟨t, he, hr | hr⟩ := exec_answers_frameAhead i s
  · refine ⟨t, he, fun hok => ?_⟩
    rw [hr, rspStatus_packResponse] at hok
    cases hok
  · refine ⟨t, he, fun hok => ?_⟩
    rw [hr, rspStatus_packResponse] at hok
    rw [hr, rspValue_packResponse]
    cases i with
    | init | acq | fault | faultF => rfl
    | idok f => exact idokResponse_value_eq f
    | tct => exact tctResponse_value_of_ok hok
    | cjt => exact cjtResponse_value_of_ok hok
    | idokF => exact idokResponse_value_eq s.env.frameAhead
    | tctF => exact tctResponse_value_of_ok hok
    | cjtF => exact cjtResponse_value_of_ok hok

/-- Settles O51: the host gives the frame of the one transaction to each of the four supplied decodes. -/
theorem readAllDecodesOneSample : Obligations.ReadAllDecodesOneSample := by
  refine fun s => ⟨fun hr => ?_, fun hr => ?_⟩
  · obtain ⟨evs, hev, htr⟩ := transaction_events (accept (encode .acq) s)
    obtain ⟨t, ht, htt⟩ := readAll_of_acq_ok (s := s)
      ((runCommand_encode .acq s).trans (exec_bus_ready .acq _ rfl hr)) rfl
    refine ⟨t, evs, ht, hev, ?_⟩
    rw [htt]
    simp [htr, answerFor, okResponse]
  · exact ⟨_, readAll_of_acq_not_ready ((runCommand_encode .acq s).trans (exec_bus_not_ready rfl hr)) rfl, rfl, rfl⟩

/-- Settles O5, by running the decoder on each word. -/
theorem specWordsDecode : Obligations.SpecWordsDecode := by
  unfold Obligations.SpecWordsDecode
  decide

end

section
/-! PROOFS. The statements of 40_transaction_engine.md: what `INIT` and `ACQ` leave behind, the trace of a transaction and
the time in it, the two transports, and the walk of a command phase by phase. -/

namespace Sys2Proof.Machine

/-! ### Fields that the lines, the power-up and a transaction leave alone -/

section
variable (s : State)

theorem exec_init : exec .init s = .next (respond (okResponse 0#32) (powerUp s)) := by
  simp [exec_eq, powerUp]

@[simp] theorem powerUp_cmdreg : (powerUp s).cmdreg = s.cmdreg := by
  obtain ⟨-, -, -, -, -, -, -, hcmd, -⟩ := initLines_spec (setPhase .pwrup s)
  exact hcmd

@[simp] theorem powerUp_shreg : (powerUp s).shreg = s.shreg := by
  obtain ⟨-, -, -, -, -, hsh, -⟩ := initLines_spec (setPhase .pwrup s)
  exact hsh

/-- `INIT` draws one wait and no level of the line (40_transaction_engine.md R70). -/
@[simp] theorem powerUp_env : (powerUp s).env = s.env.popDelay := by
  obtain ⟨-, -, -, -, henv, -⟩ := initLines_spec (setPhase .pwrup s)
  exact congrArg Env.popDelay henv

@[simp] theorem initLines_cmdreg : (initLines s).cmdreg = s.cmdreg := by
  obtain ⟨-, -, -, -, -, -, -, hcmd, -⟩ := initLines_spec s
  exact hcmd

@[simp] theorem transaction_shreg : (transaction s).shreg = s.env.frameAhead := by
  obtain ⟨-, -, -, -, -, -, -, -, -, -, -, -, hsh, -⟩ := transaction_spec s
  exact hsh

@[simp] theorem transaction_busy : (transaction s).busy = s.busy := by
  obtain ⟨-, -, -, -, -, -, -, hb, -⟩ := transaction_spec s
  exact hb

@[simp] theorem transaction_phase : (transaction s).phase = .close := rfl

end

/-! ### The trace of a transaction -/

section
variable (s : State)

/-- Steps 1 to 3 of a transaction: the start pulse and the settle wait (40_transaction_engine.md R73 to R75). -/
def pulseAndSettle : State := step3 (step2 (setPhase .settle (step1 (setPhase .stop s))))

/-- Steps 1 to 4: what a transaction does before step 5 (40_transaction_engine.md R73 to R76). -/
def openBus : State := step4 (setPhase .opened (pulseAndSettle s))

theorem transaction_eq : transaction s = step6 (setPhase .close (step5 (setPhase .shift (openBus s)))) := rfl

theorem openBus_trace :
    (openBus s).trace = s.trace ++
      openingEvents (s.cfg.tHold + s.env.nextDelay) (s.cfg.tSettle + s.env.popDelay.nextDelay) := by
  simp [openBus, pulseAndSettle, step1, step2, step3, step4, openingEvents]

/-- The trace of a transaction with the two waits of steps 1 and 3 as they are drawn: neither depends on the transport
(40_transaction_engine.md R79, R84). -/
theorem transaction_trace :
    ∃ mid, Step5Events s.cfg s.env.frameAhead mid ∧
      (transaction s).trace = s.trace ++
        openingEvents (s.cfg.tHold + s.env.nextDelay) (s.cfg.tSettle + s.env.popDelay.nextDelay) ++ mid ++
        [.pin .cs .H] := by
  obtain ⟨-, -, -, -, -, -, -, -, -, -, -, -, -, -, -, mid, hmid, htr⟩ := step5_spec (setPhase .shift (openBus s))
  have hframe : (openBus s).env.frameAhead = s.env.frameAhead := by
    simp [openBus, pulseAndSettle, step1, step2, step3, step4]
  refine ⟨mid, hframe ▸ hmid, ?_⟩
  rw [transaction_eq, step6, pinWrite_cs_trace, setPhase_trace, htr, setPhase_trace, openBus_trace]

end

/-- Step 5 in `BITBANG` mode, as the cells it drew (40_transaction_engine.md R80). -/
theorem step5Events_bitbang {c : Cfg} (hm : c.mode = .bitbang) {f : Frame} {evs : List Event}
    (h : Step5Events c f evs) :
    ∃ lead cells, c.tHalf ≤ lead ∧ cells.length = 32 ∧ (∀ x ∈ cells, c.tHalf ≤ x.high ∧ c.tHalf ≤ x.low) ∧
      evs = bitbangEvents lead cells := by
  simp only [Step5Events, hm] at h
  obtain ⟨lead, cells, hlead, hlen, hcells, -, rfl⟩ := h
  exact ⟨lead, cells, hlead, hlen, hcells, rfl⟩

/-- Step 5 in `PERIPH` mode (40_transaction_engine.md R81). -/
theorem step5Events_periph {c : Cfg} (hm : c.mode = .periph) {f : Frame} {evs : List Event} (h : Step5Events c f evs) :
    evs = periphEvents (spiSettings c) f := by
  simpa only [Step5Events, hm, spiSettings] using h

theorem cellEvents_cons (k : Nat) (c : Cell) (cells : List Cell) :
    cellEvents k (c :: cells) = cellEvents k [c] ++ cellEvents (k + 1) cells := rfl

/-- Bit cells hold `n` events of a kind each, so together they hold `n` times as many as there are cells. -/
theorem countP_cellEvents {p : Event → Bool} {n : Nat} (h : ∀ k c, (cellEvents k [c]).countP p = n) (k : Nat)
    (cells : List Cell) : (cellEvents k cells).countP p = n * cells.length := by
  induction cells generalizing k with
  | nil => rfl
  | cons c cells ih => rw [cellEvents_cons, List.countP_append, h, ih, List.length_cons, Nat.mul_succ, Nat.add_comm]

/-- Every event of a bit cell is a wait or one that `BITBANG` mode alone has. -/
theorem cellEvents_bitbangOnly (k : Nat) (cells : List Cell) :
    ∀ e ∈ cellEvents k cells, isBitbangOnly e = true ∨ ∃ d, e = .wait d := by
  induction cells generalizing k with
  | nil => simp [cellEvents]
  | cons c cells ih => simpa [cellEvents, isBitbangOnly] using ih (k + 1)

/-- Step 5 takes bits from the device in either transport (40_transaction_engine.md R80, R81). -/
theorem step5Events_acquires {c : Cfg} {f : Frame} {evs : List Event} (h : Step5Events c f evs) :
    ∃ e ∈ evs, isAcquiring e = true := by
  cases hm : c.mode with
  | bitbang =>
    obtain ⟨lead, cells, -, hlen, -, rfl⟩ := step5Events_bitbang hm h
    obtain ⟨x, xs, rfl⟩ := List.exists_cons_of_length_pos (Nat.lt_of_lt_of_eq (Nat.zero_lt_succ 31) hlen.symm)
    exact ⟨.sample 0 x.level, by simp [bitbangEvents, cellEvents], rfl⟩
  | periph => exact ⟨.spiTransfer 32 f, by simp [step5Events_periph hm h, periphEvents], rfl⟩

/-! ### The time in a transaction -/

theorem elapsed_append (xs ys : List Event) : elapsed (xs ++ ys) = elapsed xs + elapsed ys := by
  induction xs with
  | nil => simp [elapsed]
  | cons e xs ih => cases e <;> simp [elapsed, ih, Nat.add_assoc]

/-- Each bit cell waits `T_HALF` twice (40_transaction_engine.md R80). -/
theorem le_elapsed_cellEvents {half : Nat} (k : Nat) {cells : List Cell}
    (h : ∀ x ∈ cells, half ≤ x.high ∧ half ≤ x.low) : 2 * cells.length * half ≤ elapsed (cellEvents k cells) := by
  induction cells generalizing k with
  | nil => simp
  | cons c cells ih =>
    obtain ⟨hhigh, hlow⟩ := h c List.mem_cons_self
    have hrest := ih (k + 1) fun x hx => h x (List.mem_cons_of_mem c hx)
    calc 2 * (cells.length + 1) * half
      _ = half + half + 2 * cells.length * half := by ring
      _ ≤ c.high + c.low + elapsed (cellEvents (k + 1) cells) := by omega
      _ = elapsed (cellEvents k (c :: cells)) := by simp [cellEvents, elapsed, Nat.add_assoc]

/-- Step 5 in `BITBANG` mode waits `T_HALF` before the first cell and twice in each (70_reset_and_hazards.md R156). -/
theorem le_elapsed_step5Events {c : Cfg} {f : Frame} {evs : List Event} (h : Step5Events c f evs) :
    (if c.mode = .bitbang then 65 * c.tHalf else 0) ≤ elapsed evs := by
  split
  case isTrue hm =>
    obtain ⟨lead, cells, hlead, hlen, hcells, rfl⟩ := step5Events_bitbang hm h
    have h64 := le_elapsed_cellEvents 0 hcells
    rw [hlen] at h64
    rw [bitbangEvents, elapsed]
    omega
  case isFalse => exact Nat.zero_le _

/-! ### Commands in the two transports -/

/-- A command that needs the bus, with `READY = 1`: a transaction with its trace, then the response
(42_fresh_forms.md R120). -/
theorem exec_bus_trace {i : Instr} (h : usesBus i = true) {s : State} (hr : s.ready = true) :
    ∃ mid r, Step5Events s.cfg s.env.frameAhead mid ∧ exec i s = .next (respond r (transaction s)) ∧
      (respond r (transaction s)).trace = s.trace ++
        (openingEvents (s.cfg.tHold + s.env.nextDelay) (s.cfg.tSettle + s.env.popDelay.nextDelay) ++ mid ++
          [.pin .cs .H]) ++ [.resp r.status r.value] := by
  obtain ⟨mid, hmid, htr⟩ := transaction_trace s
  refine ⟨mid, _, hmid, exec_bus_ready i s h hr, ?_⟩
  rw [respond_trace, htr]
  simp only [List.append_assoc]

/-- An answer depends on the marker of the configuration alone, not on the transport (41_frame_decoder.md R103, R104). -/
theorem answerFor_mode (m : Mode) (c : Cfg) (i : Instr) (f : Frame) :
    answerFor { c with mode := m } i f = answerFor c i f := by
  cases i <;> rfl

/-- What a command that needs the bus does when its transport is `m`: only step 5 differs
(40_transaction_engine.md R79). -/
theorem exec_bus_withMode {i : Instr} (h : usesBus i = true) {s : State} (hr : s.ready = true) (m : Mode) :
    ∃ t mid, exec i { s with cfg := { s.cfg with mode := m } } = .next t ∧
      t.shreg = s.env.frameAhead ∧ t.rsp = packResponse (answerFor s.cfg i s.env.frameAhead) ∧
      t.cs = { s.cs with latch := .H } ∧ Step5Events { s.cfg with mode := m } s.env.frameAhead mid ∧
      t.trace = s.trace ++
        openingEvents (s.cfg.tHold + s.env.nextDelay) (s.cfg.tSettle + s.env.popDelay.nextDelay) ++ mid ++
        [.pin .cs .H, .resp (answerFor s.cfg i s.env.frameAhead).status (answerFor s.cfg i s.env.frameAhead).value] := by
  obtain ⟨mid, hmid, htr⟩ := transaction_trace { s with cfg := { s.cfg with mode := m } }
  refine ⟨_, mid, exec_bus_ready i { s with cfg := { s.cfg with mode := m } } h hr, by simp, ?_, by simp, hmid, ?_⟩
  · rw [respond_rsp, answerFor_mode]
  · rw [respond_trace, htr, answerFor_mode]
    simp

/-! ### Walking phase by phase -/

theorem ticks_one {s : State} (hb : s.busy = true) : ticks 1 s = tick s := ticks_succ 0 s hb

theorem ticks_trans {n m : Nat} {s t u : State} (h : ticks n s = t) (k : ticks m t = u) : ticks (n + m) s = u := by
  rw [ticks_add, h, k]

/-- Once a command has been answered, further moves change nothing. -/
theorem ticks_of_answered {n m : Nat} (h : n ≤ m) {s x : State} {r : Response} (hn : ticks n s = respond r x) :
    ticks m s = respond r x := by
  obtain ⟨k, rfl⟩ := Nat.exists_eq_add_of_le h
  exact ticks_trans hn (ticks_of_idle k _ rfl)

/-- A block whose current wait is not over waits. -/
theorem tick_of_waiting {s : State} (h : s.timer < waitBound s) : tick s = wait (waitBound s) s := by
  have hwait (go : State) : afterWait (waitBound s) s go = wait (waitBound s) s := if_pos h
  cases hp : s.phase with
  | idle | opened | close => simp [waitBound, hp] at h
  | pwrup | stop | settle =>
    simp only [waitBound, hp] at hwait ⊢
    simp only [tick, hp, hwait]
  | shift =>
    cases hm : s.cfg.mode with
    | bitbang =>
      simp only [waitBound, hp, hm] at hwait ⊢
      simp only [tick, hp, hm, tickShift, hwait]
    | periph => simp [waitBound, hp, hm] at h

/-- A move that starts a wait, and the wait: the two together are what the one step does at once. -/
theorem ticks_two {s x : State} {bound : Nat} (hb : s.busy = true) (hs : tick s = startTimer x) (hx : x.busy = true)
    (hbound : waitBound x = bound) (hpos : 0 < bound) : ticks 2 s = wait bound x := by
  subst hbound
  have hwaits : tick (startTimer x) = wait (waitBound x) (startTimer x) := tick_of_waiting hpos
  rw [ticks_succ 1 s hb, hs, ticks_one (s := startTimer x) hx, hwaits]
  rfl

/-- A wait lasts at least its bound, so a block that has waited goes on. -/
@[simp] theorem afterWait_wait (bound : Nat) (s go : State) : afterWait bound (wait bound s) go = go :=
  if_neg (Nat.not_lt.mpr (Nat.le_add_right _ _))

theorem afterWait_of_waited {bound : Nat} {s : State} (h : bound ≤ s.timer) (go : State) : afterWait bound s go = go :=
  if_neg (Nat.not_lt.mpr h)

theorem tHalf_pos {c : Cfg} (h : c.WellFormed) : 0 < c.tHalf := by
  obtain ⟨-, -, -, -, -, hhalf, -⟩ := h
  exact Nat.pos_of_ne_zero fun h0 => by simp [h0] at hhalf

/-- Steps 1 to 4 take five moves (40_transaction_engine.md R73 to R76). -/
theorem ticks_openBus {s : State} (hw : s.cfg.WellFormed) (hb : s.busy = true) (hbegin : tick s = beginTransaction s) :
    ticks 5 s = openBus s := by
  obtain ⟨hhold, hsettle, -⟩ := hw
  have hstop : ticks 2 s = step1 (setPhase .stop s) := ticks_two hb hbegin hb rfl hhold
  have hrise : tick (step1 (setPhase .stop s)) = startTimer (step2 (setPhase .settle (step1 (setPhase .stop s)))) :=
    afterWait_wait _ _ _
  have hpulse : ticks 2 (step1 (setPhase .stop s)) = pulseAndSettle s := ticks_two hb hrise hb rfl hsettle
  have hopen : ticks 1 (pulseAndSettle s) = openBus s :=
    (ticks_one (s := pulseAndSettle s) hb).trans (afterWait_wait _ _ _)
  exact ticks_trans (ticks_trans hstop hpulse) hopen

/-- A block in step 5 of `BITBANG` mode that has just finished the lead wait or a cell (40_transaction_engine.md R80). -/
structure BetweenCells (s : State) : Prop where
  busy : s.busy = true
  phase : s.phase = .shift
  mode : s.cfg.mode = .bitbang
  sckLow : s.sck.latch = .L
  waited : s.cfg.tHalf ≤ s.timer

theorem tick_shift_bitbang {s : State} (hp : s.phase = .shift) (hm : s.cfg.mode = .bitbang) : tick s = tickShift s := by
  simp only [tick, hp, hm]

theorem bitCell_bitcnt {s : State} (h : s.bitcnt.toNat < 32) : (bitCell s).bitcnt.toNat = s.bitcnt.toNat + 1 := by
  rw [bitCell_eq, BitVec.toNat_add, BitVec.toNat_ofNat]
  omega

namespace BetweenCells

variable {s : State} (h : BetweenCells s)
include h

theorem bitCell : BetweenCells (bitCell s) :=
  ⟨h.busy, h.phase, h.mode, rfl, Nat.le_add_right _ _⟩

theorem bitCells (n : Nat) : BetweenCells (bitCells n s) := by
  induction n generalizing s with
  | zero => exact h
  | succ n ih => exact ih h.bitCell

/-- A bit cell takes four moves: two edges, and a wait after each. -/
theorem ticks_bitCell (hpos : 0 < s.cfg.tHalf) (hc : s.bitcnt.toNat < 32) : ticks 4 s = Machine.bitCell s := by
  have hbound : waitBound s = s.cfg.tHalf := by simp only [waitBound, h.phase, h.mode]
  have hrise : tick s = startTimer (pinWrite .sck .H s) := by
    rw [tick_shift_bitbang h.phase h.mode, tickShift, afterWait_of_waited h.waited, h.sckLow]
    exact if_pos hc
  have hfall : tick (wait s.cfg.tHalf (pinWrite .sck .H s)) =
      startTimer (takeSample (pinWrite .sck .L (wait s.cfg.tHalf (pinWrite .sck .H s)))) := by
    rw [tick_shift_bitbang (s := wait s.cfg.tHalf (pinWrite .sck .H s)) h.phase h.mode]
    exact afterWait_wait _ _ _
  exact ticks_trans (ticks_two h.busy hrise h.busy hbound hpos) (ticks_two h.busy hfall h.busy hbound hpos)

theorem ticks_bitCells {n : Nat} (hpos : 0 < s.cfg.tHalf) (hc : s.bitcnt.toNat + n ≤ 32) :
    ticks (4 * n) s = Machine.bitCells n s := by
  induction n generalizing s with
  | zero => rfl
  | succ n ih =>
    have hcnt := bitCell_bitcnt (s := s) (by omega)
    rw [Nat.mul_succ, Nat.add_comm]
    exact ticks_trans (h.ticks_bitCell hpos (by omega)) (ih h.bitCell hpos (by omega))

/-- After the last cell the next move is step 6. -/
theorem tick_last (hc : s.bitcnt = 32#6) : tick s = step6 (setPhase .close s) := by
  rw [tick_shift_bitbang h.phase h.mode, tickShift, afterWait_of_waited h.waited, h.sckLow, hc]
  rfl

end BetweenCells

/-- Steps 5 and 6 in `BITBANG` mode: the lead wait takes two moves, each cell four, step 6 one. -/
theorem ticks_step5_bitbang {s : State} (hb : s.busy = true) (hp : s.phase = .opened) (hm : s.cfg.mode = .bitbang)
    (hl : s.sck.latch = .L) (hpos : 0 < s.cfg.tHalf) :
    ticks 131 s = step6 (setPhase .close (step5 (setPhase .shift s))) := by
  have hclear : tick s = startTimer (clearShift (setPhase .shift s)) := by simp only [tick, hp, hm]
  have hlead : ticks 2 s = wait s.cfg.tHalf (clearShift (setPhase .shift s)) :=
    ticks_two hb hclear hb (by simp [waitBound, hm]) hpos
  have hcells : BetweenCells (wait s.cfg.tHalf (clearShift (setPhase .shift s))) :=
    ⟨hb, rfl, hm, hl, Nat.le_add_right _ _⟩
  have hshift : step5 (setPhase .shift s) = shiftBitbang (setPhase .shift s) := by simp only [step5, setPhase_cfg, hm]
  obtain ⟨-, -, -, -, -, -, -, -, -, -, -, hcnt, -⟩ := shiftBitbang_spec (setPhase .shift s)
  have hall : ticks 128 (wait s.cfg.tHalf (clearShift (setPhase .shift s))) = shiftBitbang (setPhase .shift s) :=
    hcells.ticks_bitCells (n := 32) hpos (Nat.le_refl 32)
  have hlast : BetweenCells (shiftBitbang (setPhase .shift s)) := hcells.bitCells 32
  rw [hshift]
  exact ticks_trans (ticks_trans hlead hall) ((ticks_one hlast.busy).trans (hlast.tick_last hcnt))

/-- Steps 5 and 6 in `PERIPH` mode: the transfer is one move. -/
theorem ticks_step5_periph {s : State} (hb : s.busy = true) (hp : s.phase = .opened) (hm : s.cfg.mode = .periph) :
    ticks 2 s = step6 (setPhase .close (step5 (setPhase .shift s))) := by
  have hshift : tick s = setPhase .shift s := by simp only [tick, hp, hm]
  have hclose : tick (setPhase .shift s) = step6 (setPhase .close (step5 (setPhase .shift s))) := by
    simp only [tick, step5, setPhase_phase, setPhase_cfg, hm]
    rfl
  rw [ticks_succ 1 s hb, hshift, ticks_one (s := setPhase .shift s) hb, hclose]

/-- A whole transaction takes at most 136 moves, in either transport. -/
theorem ticks_transaction {s : State} (hw : s.cfg.WellFormed) (hb : s.busy = true) (hl : s.sck.latch = .L)
    (hbegin : tick s = beginTransaction s) : ∃ n ≤ 136, ticks n s = transaction s := by
  have hopen := ticks_openBus hw hb hbegin
  cases hm : s.cfg.mode with
  | bitbang => exact ⟨136, by decide, ticks_trans hopen (ticks_step5_bitbang hb rfl hm hl (tHalf_pos hw))⟩
  | periph => exact ⟨7, by decide, ticks_trans hopen (ticks_step5_periph hb rfl hm)⟩

/-! ### The walk and the one step -/

/-- The walk from `s` answers within 137 moves, in the state that is the outcome `o` of the one step. -/
def WalkAnswers (s : State) (o : Host.Outcome State Fault Refusal) : Prop :=
  ∃ n r x, n ≤ 137 ∧ ticks n s = respond r x ∧ o = .next (respond r x)

/-- A command that is answered in its first move. -/
theorem walkAnswers_of_tick {s : State} (hb : s.busy = true) {r : Response} (h : tick s = respond r s) :
    WalkAnswers s (.next (respond r s)) :=
  ⟨1, r, s, by decide, (ticks_one hb).trans h, rfl⟩

theorem tick_idle {s : State} (hp : s.phase = .idle) : tick s = beginCommand s := by
  simp only [tick, hp]

theorem beginCommand_reserved {s : State} {e : DecodeError} (hd : decode s.cmdreg = .error e) :
    beginCommand s = respond illegalResponse s := by
  simp only [beginCommand, hd]

theorem beginCommand_bus {s : State} {i : Instr} (hd : decode s.cmdreg = .ok i) (hu : usesBus i = true) :
    beginCommand s = if s.ready then beginTransaction s else respond notReadyResponse s := by
  simp only [beginCommand, hd, hu, if_true]

theorem beginCommand_init {s : State} (hd : decode s.cmdreg = .ok .init) : beginCommand s = beginInit s := by
  simp [beginCommand, hd, usesBus]

theorem beginCommand_supplied {s : State} {i : Instr} (hd : decode s.cmdreg = .ok i) (hs : isSupplied i = true) :
    beginCommand s = respond (answerFor s.cfg i s.shreg) s := by
  cases i with
  | fault | idok | tct | cjt => simp [beginCommand, hd, usesBus]
  | init | acq | faultF | idokF | tctF | cjtF => cases hs

theorem finalResponse_of_decode {s : State} {i : Instr} (hd : decode s.cmdreg = .ok i) :
    finalResponse s = answerFor s.cfg i s.shreg := by
  simp only [finalResponse, hd]

section
variable {s : State} (hp : s.phase = .idle) (hb : s.busy = true) (hw : s.cfg.WellFormed)
include hp hb

theorem walkAnswers_supplied {i : Instr} (hd : decode s.cmdreg = .ok i) (hs : isSupplied i = true) :
    WalkAnswers s (exec i s) := by
  rw [exec_supplied hs s]
  exact walkAnswers_of_tick hb ((tick_idle hp).trans (beginCommand_supplied hd hs))

/-- `INIT` takes three moves: the lines, the power-up wait, and the end (40_transaction_engine.md R70). -/
theorem walkAnswers_init (hpos : 0 < s.cfg.tPowerup) (hd : decode s.cmdreg = .ok .init) :
    WalkAnswers s (exec .init s) := by
  have hbegin : tick s = startTimer (initLines (setPhase .pwrup s)) := by
    rw [tick_idle hp, beginCommand_init hd, beginInit_eq]
  have hbound : waitBound (initLines (setPhase .pwrup s)) = s.cfg.tPowerup := by simp [waitBound]
  have hwaited : ticks 2 s = wait s.cfg.tPowerup (initLines (setPhase .pwrup s)) :=
    ticks_two hb hbegin (by simpa using hb) hbound hpos
  have hend : tick (wait s.cfg.tPowerup (initLines (setPhase .pwrup s))) = respond (okResponse 0#32) (powerUp s) := by
    have hfinal := finalResponse_of_decode (s := wait s.cfg.tPowerup (initLines (setPhase .pwrup s))) (i := .init)
      (by simpa using hd)
    simp [tick, hfinal, answerFor, powerUp]
  have hbusy : (wait s.cfg.tPowerup (initLines (setPhase .pwrup s))).busy = true := by simpa using hb
  exact ⟨3, _, _, by decide, ticks_trans hwaited ((ticks_one hbusy).trans hend), exec_init s⟩

include hw

/-- A command that needs the bus is refused in its first move, or its transaction is followed by the answer. -/
theorem walkAnswers_bus (hl : s.sck.latch = .L) {i : Instr} (hd : decode s.cmdreg = .ok i) (hu : usesBus i = true) :
    WalkAnswers s (exec i s) := by
  have hbegin := (tick_idle hp).trans (beginCommand_bus hd hu)
  cases hr : s.ready with
  | false =>
    rw [exec_bus_not_ready hu hr]
    exact walkAnswers_of_tick hb (by simpa [hr] using hbegin)
  | true =>
    obtain ⟨n, hn, ht⟩ := ticks_transaction hw hb hl (by simpa [hr] using hbegin)
    have hanswer : tick (transaction s) = respond (answerFor s.cfg i s.env.frameAhead) (transaction s) := by
      have hfinal := finalResponse_of_decode (s := transaction s) (i := i) (by simpa using hd)
      simp [tick, hfinal]
    have hbusy : (transaction s).busy = true := (transaction_busy s).trans hb
    have hend : ticks (n + 1) s = respond (answerFor s.cfg i s.env.frameAhead) (transaction s) :=
      ticks_trans ht ((ticks_one hbusy).trans hanswer)
    exact ⟨n + 1, _, _, by omega, hend, exec_bus_ready i s hu hr⟩

/-- The walk and the one step agree, command by command (40_transaction_engine.md R84). -/
theorem walkAnswers_exec (hl : s.sck.latch = .L) {i : Instr} (hd : decode s.cmdreg = .ok i) :
    WalkAnswers s (exec i s) := by
  cases i with
  | init =>
    obtain ⟨-, -, hpos, -⟩ := hw
    exact walkAnswers_init hp hb hpos hd
  | acq | faultF | idokF | tctF | cjtF => exact walkAnswers_bus hp hb hw hl hd rfl
  | fault | idok | tct | cjt => exact walkAnswers_supplied hp hb hd rfl

end

end Sys2Proof.Machine

open Sys2Proof Sys2Proof.Machine

/-- Settles O13: `INIT` has powered up when it responds, and powering up is the same whatever `READY` was. -/
theorem initSetsUpTheBlock : Obligations.InitSetsUpTheBlock := by
  refine ⟨decode_selector_append .init, fun s => ?_⟩
  refine ⟨s.cfg.tPowerup + s.env.nextDelay, _, Nat.le_add_right _ _, exec_init s, ?_⟩
  refine ⟨by rw [respond_trace, powerUp_trace]; rfl, rfl, rfl, rfl, rfl, rfl, powerUp_cs s,
    fun hm => ⟨powerUp_sck_bitbang s hm, powerUp_soDir_bitbang s hm⟩,
    fun hm => ⟨powerUp_sck_periph s hm, powerUp_soDir_periph s hm⟩, ?_⟩
  simp

/-- Settles O15: with `READY = 1` the answer is the frame that the transaction leaves in `SHREG`. -/
theorem acqReturnsTheFrame : Obligations.AcqReturnsTheFrame := by
  refine ⟨decode_selector_append .acq, fun s => ⟨fun hr => ?_, fun hr => ?_⟩⟩
  · exact ⟨_, exec_bus_not_ready rfl hr, answered_respond s notReadyResponse⟩
  · obtain ⟨evs, hev, htr⟩ := transaction_events s
    refine ⟨evs, _, exec_bus_ready .acq s rfl hr, hev, by rw [respond_trace, htr]; rfl, rfl, rfl, rfl, rfl,
      (transaction_ready s).trans hr, transaction_shreg s, transaction_cs s,
      fun hm => ⟨transaction_sck_bitbang s hm, by simp [transaction_bitcnt, hm]⟩,
      fun hm => ⟨transaction_sck_periph s hm, by simp [transaction_bitcnt, hm]⟩, ?_⟩
    simp

/-- Settles O16: steps 1 to 4 and 6 are the same in both modes, and step 5 has 32 cells or three events. -/
theorem transactionEventCounts : Obligations.TransactionEventCounts := by
  intro i s h hr
  obtain ⟨mid, r, hmid, he, htr⟩ := exec_bus_trace h hr
  refine ⟨_, _, r.status, r.value, he, htr, ?_⟩
  simp only [List.countP_append]
  cases hm : s.cfg.mode with
  | bitbang =>
    obtain ⟨lead, cells, -, hlen, -, rfl⟩ := step5Events_bitbang hm hmid
    have hcs := countP_cellEvents (p := isCsLevel) (n := 0) (fun _ _ => rfl) 0 cells
    have hrise := countP_cellEvents (p := isSckLevel .H) (n := 1) (fun _ _ => rfl) 0 cells
    have hfall := countP_cellEvents (p := isSckLevel .L) (n := 1) (fun _ _ => rfl) 0 cells
    have hsample := countP_cellEvents (p := isSample) (n := 1) (fun _ _ => rfl) 0 cells
    have hwait := countP_cellEvents (p := isWait) (n := 2) (fun _ _ => rfl) 0 cells
    have hper := countP_cellEvents (p := isPeripheral) (n := 0) (fun _ _ => rfl) 0 cells
    rw [hlen] at hcs hrise hfall hsample hwait hper
    simp [bitbangEvents, openingEvents, List.countP_cons, hcs, hrise, hfall, hsample, hwait, hper, isCsLevel,
      isSckLevel, isSample, isWait, isPeripheral]
  | periph =>
    obtain rfl := step5Events_periph hm hmid
    simp [periphEvents, openingEvents, List.countP_cons, isCsLevel, isSckLevel, isSample, isWait, isPeripheral]

/-- Settles O17: the waits of steps 1 and 3 are drawn before step 5, and the answer does not read the mode. -/
theorem transportsAgree : Obligations.TransportsAgree := by
  intro i s h hr
  obtain ⟨t, mid1, het, hsht, hrspt, hcst, hmid1, htrt⟩ := exec_bus_withMode h hr .bitbang
  obtain ⟨u, mid2, heu, hshu, hrspu, hcsu, hmid2, htru⟩ := exec_bus_withMode h hr .periph
  refine ⟨t, u, _, _, mid1, mid2, _, _, het, heu, hsht.trans hshu.symm, hsht, hrspt.trans hrspu.symm,
    hcst.trans hcsu.symm, htrt, htru, ?_,
    step5Events_periph (c := { s.cfg with mode := .periph }) rfl hmid2⟩
  obtain ⟨lead, cells, -, -, -, rfl⟩ := step5Events_bitbang (c := { s.cfg with mode := .bitbang }) rfl hmid1
  simpa [bitbangEvents] using cellEvents_bitbangOnly 0 cells

/-- Settles O18: `SHREG` holds the word that the transfer returned, which is the assembly of the line's 32 levels. -/
theorem periphShiftIsOneTransfer : Obligations.PeriphShiftIsOneTransfer := by
  intro i s h hr hm
  obtain ⟨mid, r, hmid, he, htr⟩ := exec_bus_trace h hr
  obtain rfl := step5Events_periph hm hmid
  obtain ⟨hbits, -, -⟩ := frameAssembly (s.env.levelsAhead 32) (Env.levelsAhead_length 32 s.env)
  refine ⟨_, s.cfg.tHold + s.env.nextDelay, s.cfg.tSettle + s.env.popDelay.nextDelay, s.env.frameAhead, r.status,
    r.value, he, ?_, transaction_shreg s, hbits, transaction_sck_periph s hm,
    by simp [transaction_bitcnt, hm]⟩
  rw [htr]
  simp [openingEvents, periphEvents, spiSettings]

/-- Settles O21: what acquires stands in step 5, after both waits. -/
theorem settleBeforeSampling : Obligations.SettleBeforeSampling := by
  intro i s h hr
  obtain ⟨mid, r, hmid, he, htr⟩ := exec_bus_trace h hr
  obtain ⟨e, hmem, hacq⟩ := step5Events_acquires hmid
  refine ⟨_, [.wait (s.cfg.tHold + s.env.nextDelay)], [.wait (s.cfg.tSettle + s.env.popDelay.nextDelay)],
    mid ++ [.pin .cs .H], r.status, r.value, he, ?_, Nat.le_add_right _ _, Nat.le_add_right _ _,
    by simp [isAcquiring], e, List.mem_append_left _ hmem, hacq⟩
  rw [htr]
  simp [openingEvents]

/-- Settles O22: the waits of steps 1 and 3, and in `BITBANG` mode those of step 5. -/
theorem transactionTakesTime : Obligations.TransactionTakesTime := by
  intro i s h hr
  obtain ⟨mid, r, hmid, he, htr⟩ := exec_bus_trace h hr
  have hshift := le_elapsed_step5Events hmid
  refine ⟨_, _, he, by rw [htr, List.append_assoc], ?_⟩
  simp only [elapsed_append, openingEvents, elapsed]
  omega

/-- Settles O54: a reserved word is answered in the first move, and every command in the state in which `exec` ends. -/
theorem phaseByPhaseAgrees : Obligations.PhaseByPhaseAgrees := by
  intro s w h hb
  have hp : s.phase = .idle := by
    by_contra hp
    simp [h.busyIff.mpr hp] at hb
  have hl : s.sck.latch = .L := h.sckLow (by simp [hp])
  have hwalk : WalkAnswers (accept w s) (runCommand w s) := by
    rw [runCommand_eq]
    cases hd : decode w with
    | ok i => exact walkAnswers_exec (s := accept w s) hp rfl h.cfgWellFormed hl hd
    | error e =>
      exact walkAnswers_of_tick (s := accept w s) rfl
        ((tick_idle (s := accept w s) hp).trans (beginCommand_reserved (s := accept w s) hd))
  obtain ⟨n, r, x, hn, ht, he⟩ := hwalk
  exact ⟨respond r x, he, ticks_of_answered hn ht⟩

end

section
/-! PROOFS. The statements of 41_frame_decoder.md: what each supplied decode answers, which bits of the frame it reads, and
that it does nothing but answer. -/

namespace Sys2Proof.Machine

/-! ### The tests on a frame, in its bits -/

theorem identityOk_eq_false_iff (f : Frame) :
    identityOk f = false ↔ f.getLsbD 17 = true ∨ f.getLsbD 3 = true := by
  rw [← Bool.not_eq_true, identityOk_iff, id1, id0, not_and_or, Bool.not_eq_false, Bool.not_eq_false]

/-- The guard of `TCT` reads three bits: with `D16` clear the specific fault bits play no part (41_frame_decoder.md
R103). -/
theorem tctGuard_iff (f : Frame) :
    faultCode f ≠ .ok ∨ identityOk f = false ↔ f.getLsbD 16 = true ∨ f.getLsbD 17 = true ∨ f.getLsbD 3 = true := by
  rw [Ne, faultCode_eq_ok_iff, flt, Bool.not_eq_false, identityOk_eq_false_iff]

theorem tctResponse_eq (c : Cfg) (f : Frame) :
    tctResponse c f = if f.getLsbD 16 = true ∨ f.getLsbD 17 = true ∨ f.getLsbD 3 = true then markerResponse c
      else okResponse (tcValue f) :=
  if_congr (tctGuard_iff f) rfl rfl

theorem cjtResponse_eq (c : Cfg) (f : Frame) :
    cjtResponse c f = if f.getLsbD 17 = true ∨ f.getLsbD 3 = true then markerResponse c else okResponse (cjValue f) :=
  if_congr (identityOk_eq_false_iff f) rfl rfl

/-! ### Frames that agree on some bits (41_frame_decoder.md R106) -/

theorem faultCode_congr {f g : Frame} (hflt : flt f = flt g) (hscv : scv f = scv g) (hscg : scg f = scg g)
    (hoc : oc f = oc g) : faultCode f = faultCode g := by
  rw [faultCode, faultCode, hflt, hscv, hscg, hoc]

theorem identityOk_congr {f g : Frame} (h1 : id1 f = id1 g) (h0 : id0 f = id0 g) : identityOk f = identityOk g := by
  rw [identityOk, identityOk, h1, h0]

theorem tcField_congr {f g : Frame} (h : ∀ k, 18 ≤ k → k ≤ 31 → f.getLsbD k = g.getLsbD k) : tcField f = tcField g := by
  apply BitVec.eq_of_getLsbD_eq
  intro i hi
  simp only [tcField, BitVec.getLsbD_extractLsb', h (18 + i) (by omega) (by omega)]

/-! ### A frame that holds a number in one field and zeros elsewhere (95_test_vectors.md L-9) -/

/-- The low `w` bits of the number `m` modulo `2 ^ w` are `m` in two's complement. -/
theorem toInt_setWidth_ofInt_emod {w n : Nat} (hn : n = 2 ^ w) (hw : w ≤ 32) {m : Int} (hlo : -(n / 2 : Int) ≤ m)
    (hhi : m < (n + 1 : Int) / 2) : ((BitVec.ofInt 32 (m % n)).setWidth w).toInt = m := by
  have hpos : 0 < n := hn ▸ Nat.two_pow_pos w
  have hle : n ≤ 2 ^ 32 := hn ▸ Nat.pow_le_pow_right (by decide) hw
  have hnat : ((BitVec.ofInt 32 (m % n)).toNat : Int) = m % n := by
    have hlow : 0 ≤ m % n := Int.emod_nonneg m (by omega)
    have hhigh : m % n < n := Int.emod_lt_of_pos m (by omega)
    rw [BitVec.toNat_ofInt]
    omega
  rw [BitVec.toInt_setWidth, hnat, ← hn, Int.emod_bmod, Int.bmod_eq_of_le hlo hhi]

theorem tcField_shiftLeft (x : Frame) : tcField (x <<< 18) = x.setWidth 14 := by
  ext i hi
  simp [tcField, BitVec.getLsbD_eq_getElem (show i < 32 by omega), show 18 + i < 32 by omega]

theorem cjField_shiftLeft (x : Frame) : cjField (x <<< 4) = x.setWidth 12 := by
  ext i hi
  simp [cjField, BitVec.getLsbD_eq_getElem (show i < 32 by omega), show 4 + i < 32 by omega]

theorem tctResponse_shiftLeft (c : Cfg) (x : Frame) : tctResponse c (x <<< 18) = okResponse (tcValue (x <<< 18)) := by
  rw [tctResponse_eq, if_neg (by simp)]

/-- A number of the cold-junction field's width does not reach the identity bit above the field. -/
theorem cjtResponse_shiftLeft (c : Cfg) {x : Frame} (h : x.toNat < 2 ^ 12) :
    cjtResponse c (x <<< 4) = okResponse (cjValue (x <<< 4)) := by
  have h13 : x.getLsbD 13 = false := Nat.testBit_lt_two_pow (h.trans (by decide))
  rw [cjtResponse_eq, if_neg (by simpa using h13)]

/-! ### Answers of the supplied decodes -/

theorem answered_respond_of_eq {s : State} {r : Response} {st : Status} {v : BitVec 32}
    (h : r = { status := st, value := v }) : Answered s (respond r s) st v := by
  rw [h]
  exact answered_respond s _

theorem usesBus_of_isSupplied {i : Instr} (h : isSupplied i = true) : usesBus i = false := by
  cases i with
  | fault | idok | tct | cjt => rfl
  | init | acq | faultF | idokF | tctF | cjtF => cases h

/-- A supplied decode never answers `NOT_READY` or `ILLEGAL` (41_frame_decoder.md R100). -/
theorem answerFor_supplied_status {i : Instr} (h : isSupplied i = true) (c : Cfg) (f : Frame) :
    (answerFor c i f).status = .ok ∨ (answerFor c i f).status = .errmark := by
  cases i with
  | fault | idok => exact .inl rfl
  | tct g =>
    rw [answerFor]
    obtain ⟨-, e⟩ | ⟨-, -, e⟩ := tctResponse_cases c g <;> rw [e]
    · exact .inr rfl
    · exact .inl rfl
  | cjt g =>
    rw [answerFor]
    obtain ⟨-, e⟩ | ⟨-, e⟩ := cjtResponse_cases c g <;> rw [e]
    · exact .inr rfl
    · exact .inl rfl
  | init | acq | faultF | idokF | tctF | cjtF => cases h

end Sys2Proof.Machine

open Sys2Proof Sys2Proof.Machine

/-- Settles O23, by the order of the tests. -/
theorem faultClassifies : Obligations.FaultClassifies := by
  refine fun f => ⟨decode_selector_append (.fault f) f, fun s => ?_⟩
  refine ⟨_, faultNumber (faultCode f), exec_supplied rfl s, answered_respond s (faultResponse f), ?_⟩
  exact ⟨fun hflt => congrArg faultNumber ((faultCode_eq_ok_iff f).mpr hflt),
    fun hflt hscv => congrArg faultNumber ((faultCode_eq_shortToSupply_iff f).mpr ⟨hflt, hscv⟩),
    fun hflt hscv hscg => congrArg faultNumber (faultCode_of_scg hflt hscv hscg),
    fun hflt hscv hscg hoc => congrArg faultNumber (faultCode_of_oc hflt hscv hscg hoc),
    fun hflt hscv hscg hoc => congrArg faultNumber (faultCode_of_no_specific hflt hscv hscg hoc)⟩

/-- Settles O24: the check passes with both identity bits clear and fails with either set. -/
theorem idokChecksBothBits : Obligations.IdokChecksBothBits := by
  refine fun f => ⟨decode_selector_append (.idok f) f, fun s => ?_⟩
  refine ⟨_, (idokResponse f).value, exec_supplied rfl s, answered_respond s (idokResponse f), fun hpass => ?_,
    fun hfail => ?_⟩
  · exact idokResponse_value ((identityOk_iff f).mpr hpass)
  · exact if_neg (by simp [(identityOk_eq_false_iff f).mpr hfail])

/-- Settles O25: the answer is the marker or the field, and sign extension keeps the field's number. -/
theorem tctDecodes : Obligations.TctDecodes := by
  refine fun f => ⟨decode_selector_append (.tct f) f, tctGuard_iff f, fun s => ?_⟩
  refine ⟨_, exec_supplied rfl s, fun hbad => ?_, fun ⟨hf, hi⟩ => ?_⟩
  · exact answered_respond_of_eq (tctResponse_eq_marker hbad)
  · obtain ⟨hlo, hhi⟩ := tcValue_range f
    exact ⟨tcValue f, answered_respond_of_eq (tctResponse_eq_ok hf hi), rfl, tcValue_toInt f, hlo, hhi, tcDegrees_tcValue f⟩

/-- Settles O26: the answer is the marker or the field, and the recipe computes the field's number. -/
theorem cjtDecodes : Obligations.CjtDecodes := by
  refine fun f => ⟨decode_selector_append (.cjt f) f, identityOk_eq_false_iff f, fun s => ?_⟩
  refine ⟨_, exec_supplied rfl s, fun hbad => ?_, fun hi => ?_⟩
  · exact answered_respond_of_eq (cjtResponse_eq_marker hbad)
  · obtain ⟨hlo, hhi⟩ := cjSteps_range f
    rw [← cjValue_toInt] at hlo hhi
    exact ⟨cjValue f, answered_respond_of_eq (cjtResponse_eq_ok hi), rfl,
      (cjValue_toInt f).trans (cjSteps_eq_recipe f), hlo, hhi, cjDegrees_cjValue f⟩

/-- Settles O30: with the other bits zero the guard lets the field through, and the field holds `m`. -/
theorem everyStepCountIsRead : Obligations.EveryStepCountIsRead := by
  refine fun s m => ⟨fun hlo hhi => ?_, fun hlo hhi => ?_⟩
  · refine ⟨_, _, exec_supplied rfl s, answered_respond_of_eq (tctResponse_shiftLeft s.cfg _), (tcValue_toInt _).trans ?_⟩
    rw [tcSteps, tcField_shiftLeft]
    exact toInt_setWidth_ofInt_emod (n := 16384) rfl (by decide) (by omega) (by omega)
  · have hsmall : (BitVec.ofInt 32 (m % 4096)).toNat < 2 ^ 12 := by
      rw [BitVec.toNat_ofInt]
      omega
    refine ⟨_, _, exec_supplied rfl s, answered_respond_of_eq (cjtResponse_shiftLeft s.cfg hsmall), (cjValue_toInt _).trans ?_⟩
    rw [cjSteps, cjField_shiftLeft]
    exact toInt_setWidth_ofInt_emod (n := 4096) rfl (by decide) (by omega) (by omega)

/-- Settles O31: each answer is written in tests of single bits and a field. -/
theorem resultsReadOnlyTheirBits : Obligations.ResultsReadOnlyTheirBits := by
  refine fun c f g => ⟨fun h => ?_, fun h => ?_, fun h => ?_, fun h => ?_⟩
  · rw [faultResponse, faultResponse,
      faultCode_congr (h 16 (by decide)) (h 2 (by decide)) (h 1 (by decide)) (h 0 (by decide))]
  · rw [idokResponse, idokResponse, identityOk_congr (h 17 (by decide)) (h 3 (by decide))]
  · have hfield : tcField f = tcField g := tcField_congr fun k hlo hhi => h k (.inl ⟨by omega, hhi⟩)
    rw [tctResponse_eq, tctResponse_eq, h 16 (by decide), h 17 (by decide), h 3 (by decide), tcValue, tcValue, hfield]
  · have hfield : cjField f = cjField g := cjField_congr fun k hlo hhi => h k (.inr ⟨by omega, hhi⟩)
    rw [cjtResponse_eq, cjtResponse_eq, h 17 (by decide), h 3 (by decide), cjValue, cjValue, hfield]

/-- Settles O34: a supplied decode does nothing but answer, and its answer does not read `SHREG`. -/
theorem suppliedDecodesArePure : Obligations.SuppliedDecodesArePure := by
  intro i hi c
  refine ⟨(answerFor c i 0#32).status, (answerFor c i 0#32).value, answerFor_supplied_status hi c 0#32, ?_, ?_⟩
  · rintro ⟨f, rfl | rfl⟩ <;> rfl
  · rintro s rest rfl hb hp hh
    rw [step_of_idle_command hb hh, runCommand_encode_supplied hi,
      answerFor_of_not_usesBus (usesBus_of_isSupplied hi) _ _ 0#32]
    exact congrArg Host.Outcome.next (respond_accept_withHost hb hp _ (encode i) rest)

end

section
/-! PROOFS. The statements of 42_fresh_forms.md: a transaction, then the pure decode of its frame. -/

namespace Sys2Proof.Machine

/-- A fresh form needs the bus, ignores its operand, and answers what its supplied form answers for the frame
(42_fresh_forms.md R120). -/
theorem fresh_spec {i : Instr} (h : i ∈ [Instr.faultF, .idokF, .tctF, .cjtF]) :
    usesBus i = true ∧ (∀ x, i.withOperand x = i) ∧
      ∀ f, ∃ j, suppliedOf i f = some j ∧ isSupplied j = true ∧ ∀ c g, answerFor c j g = answerFor c i f := by
  simp only [List.mem_cons, List.not_mem_nil, or_false] at h
  obtain rfl | rfl | rfl | rfl := h
  · exact ⟨rfl, fun _ => rfl, fun f => ⟨.fault f, rfl, rfl, fun _ _ => rfl⟩⟩
  · exact ⟨rfl, fun _ => rfl, fun f => ⟨.idok f, rfl, rfl, fun _ _ => rfl⟩⟩
  · exact ⟨rfl, fun _ => rfl, fun f => ⟨.tct f, rfl, rfl, fun _ _ => rfl⟩⟩
  · exact ⟨rfl, fun _ => rfl, fun f => ⟨.cjt f, rfl, rfl, fun _ _ => rfl⟩⟩

/-- Another response from the same point: only the response word and the trace's last event differ. -/
theorem respond_eq_with (r q : Response) (x : State) :
    respond r x = { respond q x with rsp := packResponse r, trace := x.trace ++ [.resp r.status r.value] } := rfl

end Sys2Proof.Machine

open Sys2Proof Sys2Proof.Machine

/-- Settles O35: the fresh form and `ACQ` respond after the same transaction, and the supplied form answers for the frame
of that `ACQ` as the fresh form does. -/
theorem freshIsAcquireThenDecode : Obligations.FreshIsAcquireThenDecode := by
  intro i s hi
  obtain ⟨hbus, hoperand, hform⟩ := fresh_spec hi
  refine ⟨fun x => ?_, fun hr => ?_, fun hr => ?_⟩
  · rw [decode_selector_append, hoperand]
  · exact ⟨_, exec_bus_not_ready hbus hr, answered_respond s notReadyResponse⟩
  · obtain ⟨evs, -, htr⟩ := transaction_events s
    obtain ⟨j, hj, hsup, hanswer⟩ := hform s.env.frameAhead
    have hacq : exec .acq s = .next (respond (okResponse s.env.frameAhead) (transaction s)) :=
      exec_bus_ready .acq s rfl hr
    have hframe : rspValue (respond (okResponse s.env.frameAhead) (transaction s)).rsp = s.env.frameAhead :=
      rspValue_packResponse _
    have hdecode : exec j s = .next (respond (answerFor s.cfg i s.env.frameAhead) s) := by
      rw [exec_supplied hsup, hanswer]
    refine ⟨_, _, _, evs, j, hacq, (congrArg (suppliedOf i) hframe).trans hj, hdecode, ?_,
      exec_bus_ready i s hbus hr, ?_⟩
    · rw [respond_trace, htr, hframe]
      rfl
    · rw [respond_rsp, rspStatus_packResponse, rspValue_packResponse, ← htr]
      exact respond_eq_with _ _ _

end

section
/-! PROOFS. The statements of 60_exceptions.md: a block that is not ready, the error marker, the statuses of each command. -/

namespace Sys2Proof.Machine

/-! ### The response of each command -/

/-- `INIT` and the supplied decodes answer for their own operand, whatever `READY` is (60_exceptions.md R131). -/
theorem exec_not_bus {i : Instr} (h : usesBus i = false) (s : State) (f : Frame) :
    ∃ x, exec i s = .next (respond (answerFor s.cfg i f) x) := by
  cases i with
  | init => exact ⟨_, exec_init s⟩
  | fault | idok | tct | cjt => exact ⟨s, exec_supplied rfl s⟩
  | acq | faultF | idokF | tctF | cjtF => cases h

/-- Every command answers (60_exceptions.md R130): `NOT_READY` when it needs the bus and `READY = 0` (R133), and otherwise
what it gives for the frame that the line spells. -/
theorem exec_rsp_cases (i : Instr) (s : State) :
    ∃ t, exec i s = .next t ∧
      (usesBus i = true ∧ s.ready = false ∧ t.rsp = packResponse notReadyResponse ∨
        (usesBus i = true → s.ready = true) ∧ t.rsp = packResponse (answerFor s.cfg i s.env.frameAhead)) := by
  cases hb : usesBus i with
  | true =>
    cases hr : s.ready with
    | true => exact ⟨_, exec_bus_ready i s hb hr, .inr ⟨fun _ => rfl, rfl⟩⟩
    | false => exact ⟨_, exec_bus_not_ready hb hr, .inl ⟨rfl, rfl, rfl⟩⟩
  | false =>
    obtain ⟨x, he⟩ := exec_not_bus hb s s.env.frameAhead
    exact ⟨_, he, .inr ⟨fun h => (nomatch h), rfl⟩⟩

/-! ### `OK` or the marker (60_exceptions.md R131) -/

theorem tctResponse_ok_or_marker (c : Cfg) (f : Frame) :
    (tctResponse c f).status = .ok ∨ tctResponse c f = markerResponse c := by
  obtain ⟨-, e⟩ | ⟨-, -, e⟩ := tctResponse_cases c f
  · exact .inr e
  · exact .inl (congrArg Response.status e)

theorem cjtResponse_ok_or_marker (c : Cfg) (f : Frame) :
    (cjtResponse c f).status = .ok ∨ cjtResponse c f = markerResponse c := by
  obtain ⟨-, e⟩ | ⟨-, e⟩ := cjtResponse_cases c f
  · exact .inr e
  · exact .inl (congrArg Response.status e)

/-- Beyond `NOT_READY` a command answers `OK`, or it is a temperature command and answers the marker. -/
theorem answerFor_ok_or_marker (c : Cfg) (i : Instr) (f : Frame) :
    (answerFor c i f).status = .ok ∨ canAnswer i .errmark = true ∧ answerFor c i f = markerResponse c := by
  cases i with
  | init | acq | fault | idok | faultF | idokF => exact .inl rfl
  | tct g => exact (tctResponse_ok_or_marker c g).imp_right (⟨rfl, ·⟩)
  | cjt g => exact (cjtResponse_ok_or_marker c g).imp_right (⟨rfl, ·⟩)
  | tctF => exact (tctResponse_ok_or_marker c f).imp_right (⟨rfl, ·⟩)
  | cjtF => exact (cjtResponse_ok_or_marker c f).imp_right (⟨rfl, ·⟩)

/-- `ERRMARK` carries the marker, whatever the cause (60_exceptions.md R132). -/
theorem answerFor_errmark_value {c : Cfg} {i : Instr} {f : Frame} (h : (answerFor c i f).status = .errmark) :
    (answerFor c i f).value = c.errMarker := by
  obtain hok | ⟨-, e⟩ := answerFor_ok_or_marker c i f
  · rw [hok] at h
    cases h
  · rw [e]
    rfl

/-! ### The causes of the marker (60_exceptions.md R132) -/

theorem cjtResponse_errmark_iff (c : Cfg) (f : Frame) :
    (cjtResponse c f).status = .errmark ↔ identityOk f = false := by
  obtain ⟨h, e⟩ | ⟨h, e⟩ := cjtResponse_cases c f <;> rw [e]
  · exact iff_of_true rfl h
  · exact iff_of_false (fun h => nomatch h) (by simp [h])

/-- The guards of `TCT` and `CJT` are the causes; a fresh form reads them in the frame that the line spells. -/
theorem answerFor_errmark_iff {i : Instr} {s : State} (hr : usesBus i = true → s.ready = true) :
    (answerFor s.cfg i s.env.frameAhead).status = .errmark ↔ MarkerCause i s := by
  cases i with
  | init | acq | fault | idok | faultF | idokF => exact iff_of_false (fun h => nomatch h) id
  | tct f => exact (tctResponse_errmark_iff _ f).trans (tctGuard_iff f)
  | cjt f => exact (cjtResponse_errmark_iff _ f).trans (identityOk_eq_false_iff f)
  | tctF => exact ((tctResponse_errmark_iff _ _).trans (tctGuard_iff _)).trans (and_iff_right (hr rfl)).symm
  | cjtF => exact ((cjtResponse_errmark_iff _ _).trans (identityOk_eq_false_iff _)).trans (and_iff_right (hr rfl)).symm

/-- With `READY = 0` a command that needs the bus has no frame in which a cause could be. -/
theorem MarkerCause.ready {i : Instr} {s : State} (h : MarkerCause i s) (hb : usesBus i = true) : s.ready = true := by
  cases i with
  | tctF | cjtF => exact h.1
  | acq | faultF | idokF => exact h.elim
  | init | fault | idok | tct | cjt => cases hb

end Sys2Proof.Machine

open Sys2Proof Sys2Proof.Machine

/-- Settles O20: with `READY = 0` the command does nothing but respond. -/
theorem busCommandNeedsReady : Obligations.BusCommandNeedsReady := by
  intro i s hi hr
  exact ⟨_, exec_bus_not_ready (usesBus_of_mem hi) hr, answered_respond s notReadyResponse, hr⟩

/-- Settles O32: `NOT_READY` is no `ERRMARK` and has no cause; any other answer is the marker exactly when its guard holds. -/
theorem markerHasExactlyItsCauses : Obligations.MarkerHasExactlyItsCauses := by
  intro i s
  obtain ⟨t, he, ht⟩ := exec_rsp_cases i s
  refine ⟨t, he, ?_⟩
  obtain ⟨hb, hr, hrsp⟩ | ⟨hr, hrsp⟩ := ht <;> rw [hrsp, rspStatus_packResponse, rspValue_packResponse]
  · exact ⟨iff_of_false (fun h => nomatch h) (fun h => by simp [h.ready hb] at hr), fun h => nomatch h⟩
  · exact ⟨answerFor_errmark_iff hr, answerFor_errmark_value⟩

/-- Settles O39: the answer is `NOT_READY`, `OK` or the marker, and `NOT_READY` only for want of `READY`. -/
theorem statusesByCommand : Obligations.StatusesByCommand := by
  intro i s
  obtain ⟨t, he, ht⟩ := exec_rsp_cases i s
  refine ⟨t, he, ?_⟩
  obtain ⟨hb, hr, hrsp⟩ | ⟨hr, hrsp⟩ := ht <;> rw [hrsp, rspStatus_packResponse, rspValue_packResponse]
  · exact ⟨hb, iff_of_true rfl ⟨hb, hr⟩, fun _ => rfl, fun h => nomatch h⟩
  · have hbus : ¬(usesBus i = true ∧ s.ready = false) := fun ⟨hb, hn⟩ => by simp [hr hb] at hn
    obtain hok | ⟨hcan, e⟩ := answerFor_ok_or_marker s.cfg i s.env.frameAhead
    · rw [hok]
      exact ⟨rfl, iff_of_false (fun h => nomatch h) hbus, fun h => (nomatch h), fun h => (nomatch h)⟩
    · rw [e]
      exact ⟨hcan, iff_of_false (fun h => nomatch h) hbus, fun h => (nomatch h), fun _ => rfl⟩

end

section
/-! PROOFS. The timer after `INIT` (10_state.md R16; 40_transaction_engine.md R70). -/

namespace Sys2Proof.Machine

/-- Nothing after the power-up wait writes the timer, so it holds the whole wait (log entry 20). -/
@[simp] theorem powerUp_timer (s : State) : (powerUp s).timer = s.cfg.tPowerup + s.env.nextDelay := by
  obtain ⟨-, -, -, -, henv, -⟩ := initLines_spec (setPhase .pwrup s)
  simp [powerUp, henv]

end Sys2Proof.Machine

open Sys2Proof Sys2Proof.Machine

/-- Settles O14: the wait that the trace of the power-up records is the one that its timer holds. -/
theorem initLeavesItsWaitInTheTimer : Obligations.InitLeavesItsWaitInTheTimer := by
  intro s
  refine ⟨_, exec_init s, ?_, ?_⟩
  · rw [respond_timer, powerUp_timer]
    exact Nat.le_add_right _ _
  · rw [respond_trace, respond_timer, powerUp_trace, powerUp_timer]
    rfl

end
